-- ==== Sys2Proof/Word.lean ====
section
/-! DEFINITION. The widths of the values the zigstack CORE codec handles (spec/00_scope.md R10, spec/20_memory.md R45). -/

namespace Sys2Proof

/-- A byte: 8 bits (R10). -/
abbrev Byte := BitVec 8

/-- The 16-bit registers ARG, RES and CONSUMED, and a CRC (R27, R28, R29, R120). -/
abbrev Word16 := BitVec 16

/-- An address of the host register space, 11 bits, 0x000 to 0x7FF (R45). -/
abbrev Addr := BitVec 11

end Sys2Proof
end

