-- ==== Sys2Proof/Syntax.lean ====
section
/-! DEFINITION. The operations of the codec: one constructor per row of spec/opcode_table.json
(spec/30_encoding.md R64). No operation takes an operand in its syntax (R63, R82): every operand is a register or a
buffer that the operation's own rule names. -/

namespace Sys2Proof

/-- The 18 operations of the operation map (R64), in the table's order. -/
inductive Instr where
  /-- NOP, code 0x00 (R89). -/
  | nop
  /-- CW_FROM_U16, code 0x10 (R96). -/
  | cwFromU16
  /-- CW_FROM_BYTES, code 0x11 (R97). -/
  | cwFromBytes
  /-- CW_SUBSYSTEM, code 0x12 (R99). -/
  | cwSubsystem
  /-- CW_TYPE, code 0x13 (R100). -/
  | cwType
  /-- CW_NAME, code 0x14 (R102). -/
  | cwName
  /-- CW_SERIALIZE, code 0x15 (R103). -/
  | cwSerialize
  /-- HDR_FROM_BYTES, code 0x20 (R106). -/
  | hdrFromBytes
  /-- HDR_SERIALIZE, code 0x21 (R107). -/
  | hdrSerialize
  /-- FRAME_FROM_BYTES, code 0x22 (R108). -/
  | frameFromBytes
  /-- FRAME_SERIALIZE, code 0x23 (R109). -/
  | frameSerialize
  /-- CHECKSUM, code 0x30 (R113). -/
  | checksum
  /-- ENV_FROM_BYTES, code 0x31 (R114). -/
  | envFromBytes
  /-- ENV_SERIALIZE, code 0x32 (R115). -/
  | envSerialize
  /-- ENV_COMMAND, code 0x33 (R116). -/
  | envCommand
  /-- LINK_MAKE_CTRL, code 0x40 (R122). -/
  | linkMakeCtrl
  /-- LINK_SEND_ACK, code 0x41 (R124). -/
  | linkSendAck
  /-- LINK_PARSE_CTRL, code 0x42 (R125). -/
  | linkParseCtrl
  deriving DecidableEq, Repr

end Sys2Proof
end

