-- ==== Sys2Proof/Decode.lean ====
section
/-! DEFINITION. Decoding an operation code by its two fields (spec/30_encoding.md R63, R84), then the encoder from the
codes of the operation map (R64). -/

namespace Sys2Proof

/-- The one reason the decoder turns a byte away. -/
inductive DecodeError where
  /-- The byte is one of the 238 codes that no row of the operation map holds (R65). -/
  | illegalOperation (code : Byte)
  deriving DecidableEq, Repr

/-- The component families of the `fam` field (R63). -/
inductive Family where
  | control | commandWord | standardFrame | monitorEnvelope | linkAck
  deriving DecidableEq, Repr

/-- The value of the `fam` field (R63). -/
def Family.code : Family → BitVec 4
  | .control => 0#4
  | .commandWord => 1#4
  | .standardFrame => 2#4
  | .monitorEnvelope => 3#4
  | .linkAck => 4#4

/-- The family each operation belongs to (R64). -/
def Instr.family : Instr → Family
  | .nop => .control
  | .cwFromU16 | .cwFromBytes | .cwSubsystem | .cwType | .cwName | .cwSerialize => .commandWord
  | .hdrFromBytes | .hdrSerialize | .frameFromBytes | .frameSerialize => .standardFrame
  | .checksum | .envFromBytes | .envSerialize | .envCommand => .monitorEnvelope
  | .linkMakeCtrl | .linkSendAck | .linkParseCtrl => .linkAck

/-- The `fam` field, bits 7:4 of the code (R63). -/
def famField (v : Byte) : Nat := (v.extractLsb' 4 4).toNat

/-- The `fn` field, bits 3:0 of the code (R63). -/
def fnField (v : Byte) : Nat := (v.extractLsb' 0 4).toNat

/-- Decoding an operation code (R84): total over all 256 bytes, all 8 bits take part, and it depends on nothing but
the byte (R88). -/
def decode (v : Byte) : Except DecodeError Instr :=
  match famField v, fnField v with
  | 0, 0 => .ok .nop
  | 1, 0 => .ok .cwFromU16
  | 1, 1 => .ok .cwFromBytes
  | 1, 2 => .ok .cwSubsystem
  | 1, 3 => .ok .cwType
  | 1, 4 => .ok .cwName
  | 1, 5 => .ok .cwSerialize
  | 2, 0 => .ok .hdrFromBytes
  | 2, 1 => .ok .hdrSerialize
  | 2, 2 => .ok .frameFromBytes
  | 2, 3 => .ok .frameSerialize
  | 3, 0 => .ok .checksum
  | 3, 1 => .ok .envFromBytes
  | 3, 2 => .ok .envSerialize
  | 3, 3 => .ok .envCommand
  | 4, 0 => .ok .linkMakeCtrl
  | 4, 1 => .ok .linkSendAck
  | 4, 2 => .ok .linkParseCtrl
  | _, _ => .error (.illegalOperation v)

/-- The code of each operation, from the operation map (R64). -/
def encode : Instr → Byte
  | .nop => 0x00#8
  | .cwFromU16 => 0x10#8
  | .cwFromBytes => 0x11#8
  | .cwSubsystem => 0x12#8
  | .cwType => 0x13#8
  | .cwName => 0x14#8
  | .cwSerialize => 0x15#8
  | .hdrFromBytes => 0x20#8
  | .hdrSerialize => 0x21#8
  | .frameFromBytes => 0x22#8
  | .frameSerialize => 0x23#8
  | .checksum => 0x30#8
  | .envFromBytes => 0x31#8
  | .envSerialize => 0x32#8
  | .envCommand => 0x33#8
  | .linkMakeCtrl => 0x40#8
  | .linkSendAck => 0x41#8
  | .linkParseCtrl => 0x42#8

/-- The byte a row of the opcode table stands for: the low `nbits` bits of `w`, every bit above them 0. -/
def tableByte (nbits w : Nat) : Byte := BitVec.ofNat 8 (w % 2 ^ nbits)

/-- The instruction the decoder reads from a row's word, or none where it refuses. -/
def decodeTableWord (nbits w : Nat) : Option Instr :=
  match decode (tableByte nbits w) with
  | .ok i => some i
  | .error _ => none

end Sys2Proof
end

