-- ==== Sys2Proof/Machine/Flags.lean ====
section
/-! DEFINITION. The fields of STATUS (spec/10_state.md R18 to R22), the error kinds and their codes
(spec/60_exceptions.md R129), and the STATUS value each outcome writes (R87, R131, R132, spec/44_link_ack.md R124). -/

namespace Sys2Proof.Machine

/-- The error kinds an operation can raise (R129). -/
inductive ErrorKind where
  | framingError | checksumMismatch | truncatedFrame | unsupportedVariant | invalidLength | illegalOperation
  deriving DecidableEq, Repr

/-- The outcome code of an error kind (R129). -/
def ErrorKind.code : ErrorKind → BitVec 4
  | .framingError => 1#4
  | .checksumMismatch => 2#4
  | .truncatedFrame => 3#4
  | .unsupportedVariant => 4#4
  | .invalidLength => 5#4
  | .illegalOperation => 6#4

/-- STATUS.ERR, bits 3:0 (R18). -/
def Status.err (v : Byte) : BitVec 4 := v.extractLsb' 0 4

/-- STATUS.DONE, bit 4 (R18). -/
def Status.done (v : Byte) : Bool := v.getLsbD 4

/-- STATUS.BUSY, bit 5 (R18). -/
def Status.busy (v : Byte) : Bool := v.getLsbD 5

/-- STATUS.STICKY, bit 6 (R18). -/
def Status.sticky (v : Byte) : Bool := v.getLsbD 6

/-- The reserved bit 7 (R18, R22). -/
def Status.reserved (v : Byte) : Bool := v.getLsbD 7

/-- STATUS with ERR replaced. -/
def Status.withErr (v : Byte) (e : BitVec 4) : Byte := v.extractLsb' 4 4 ++ e

/-- STATUS with DONE set. -/
def Status.setDone (v : Byte) : Byte := v ||| 0x10#8

/-- STATUS with DONE cleared. -/
def Status.clearDone (v : Byte) : Byte := v &&& 0xEF#8

/-- STATUS with BUSY set. -/
def Status.setBusy (v : Byte) : Byte := v ||| 0x20#8

/-- STATUS with BUSY cleared. -/
def Status.clearBusy (v : Byte) : Byte := v &&& 0xDF#8

/-- STATUS with STICKY set. -/
def Status.setSticky (v : Byte) : Byte := v ||| 0x40#8

/-- STATUS with STICKY cleared. -/
def Status.clearSticky (v : Byte) : Byte := v &&& 0xBF#8

/-- STATUS after an operation commits: ERR = 0 and DONE = 1 (R131). -/
def Status.committed (v : Byte) : Byte := Status.setDone (Status.withErr v 0#4)

/-- STATUS after an operation raises kind k: its code, DONE = 1 and STICKY = 1 (R132). -/
def Status.raised (k : ErrorKind) (v : Byte) : Byte := Status.setSticky (Status.setDone (Status.withErr v k.code))

/-- STATUS after the transport accepts the held frame: BUSY = 0, ERR = 0 and DONE = 1 (R124). -/
def Status.accepted (v : Byte) : Byte := Status.committed (Status.clearBusy v)

/-- STATUS after the host writes v to it: bit 6 of v clears STICKY, every other bit of v is ignored (R21). -/
def Status.hostWritten (v old : Byte) : Byte := if v.getLsbD 6 then Status.clearSticky old else old

end Sys2Proof.Machine
end

