-- ==== Sys2Proof/Config.lean ====
section
/-! DEFINITION. The implementation parameters of spec/00_scope.md R8, the bases of the three buffers in the
host address map (spec/20_memory.md R46), and the two values the spec leaves open: the subsystem names and the
draws of never-written buffer bytes. -/

namespace Sys2Proof

/-- `PAYLOAD_MAX`, the largest payload byte count (R8). -/
def Config.payloadMax : Nat := 250

/-- `SOF`, the start-of-frame marker of a monitor frame (R8, R75). -/
def Config.sof : Byte := 0xFE#8

/-- `LINK_TERMINATOR`, the last byte of a link control frame (R8, R77). -/
def Config.linkTerminator : Byte := 0x7E#8

/-- `ACK_FLAG`, the bit that marks an acknowledgement (R8, R78). -/
def Config.ackFlag : Byte := 0x80#8

/-- `SEQ_MASK`, the sequence-number mask the spec decides as 0x07 (R8, R78, R123). -/
def Config.seqMask : Byte := 0x07#8

/-- `PAYLOAD_CAP` (R8, R33). -/
def Config.payloadCap : Nat := 250

/-- `IBUF_CAP` (R8, R34). -/
def Config.ibufCap : Nat := 256

/-- `OBUF_CAP` (R8, R35). -/
def Config.obufCap : Nat := 260

/-- The host address of PAYLOAD[0] (R46). -/
def Config.payloadBase : Nat := 0x100

/-- The host address of IBUF[0] (R46). -/
def Config.ibufBase : Nat := 0x200

/-- The host address of OBUF[0] (R46). -/
def Config.obufBase : Nat := 0x400

/-- The open parameter `NAME_SET` with the names of its members (R8, R101, D11): a code is in `NAME_SET` exactly
when it has a name here. Free: nothing in Lean can evaluate it. Log entry 2. -/
opaque Config.subsystemName : BitVec 5 → Option String

/-- The draw of a buffer byte that has not been written since reset (R43, D42): the value read at a given count of
steps, at a given host address. Free: a different count or address is an unrelated draw. Log entry 1. -/
opaque Config.drawByte : Nat → Nat → Byte

end Sys2Proof
end

