-- ==== Sys2Proof/HostSyntax.lean ====
section
/-! DEFINITION. The host's side of the register map: the named locations (spec/20_memory.md R46), the byte accesses
(R45), the atomic steps of the single total order (R57) and the lines of a host program (spec/30_encoding.md R81 to
R83). -/

namespace Sys2Proof

/-- A location of the host register space that the address map names (R46). Every other address is reserved (R47). -/
inductive Loc where
  | op | status | cmd0 | cmd1 | len | variant
  | argLo | argHi | resLo | resHi | consumedLo | consumedHi
  | ibufLenLo | ibufLenHi | obufLenLo | obufLenHi
  /-- PAYLOAD[i] (R33). -/
  | payload (i : Nat)
  /-- IBUF[i] (R34). -/
  | ibuf (i : Nat)
  /-- OBUF[i] (R35). -/
  | obuf (i : Nat)
  deriving DecidableEq, Repr

/-- The host's two primitives, `MemRead(a, 1)` and `MemWrite(a, 1, v)` (R45). -/
inductive Access where
  | read (a : Addr)
  | write (a : Addr) (v : Byte)
  deriving DecidableEq, Repr

/-- One atomic step of the single total order of R57, by the agent that takes it. -/
inductive Event where
  /-- The host makes one byte access (R45). -/
  | host (x : Access)
  /-- The transport accepts the frame held in PEND (R124, R137). -/
  | accept
  /-- The platform asserts RESET (R143). -/
  | reset
  deriving DecidableEq, Repr

/-- What a `wr` or `rd` line names: a register or buffer cell by name, or an address (R81, R83). -/
inductive Target where
  | loc (l : Loc)
  | abs (a : Addr)
  deriving DecidableEq, Repr

/-- The registers wider than a byte, which `rd16` reads in two accesses (R51, R83). -/
inductive WideReg where
  | arg | res | consumed | ibufLen | obufLen
  deriving DecidableEq, Repr

/-- One line of a host program (R81, R82) or pseudo-instruction (R83). The expansion of `wait` and of `rdobuf`
depends on what the host reads, so each carries what it read: how many polls saw BUSY = 1, and the n of OBUF_LEN. Log
entry 11. -/
inductive HostLine where
  /-- `wr <reg>, <byte>`. -/
  | wr (x : Target) (v : Byte)
  /-- `rd <reg>`. -/
  | rd (x : Target)
  /-- `op <MNEMONIC>`. -/
  | op (i : Instr)
  /-- `op 0x<hh>`, for a code with no mnemonic. -/
  | opRaw (v : Byte)
  /-- `wr16 ARG, v`. -/
  | wr16 (v : Word16)
  /-- `rd16 <reg16>`. -/
  | rd16 (r : WideReg)
  /-- `ibuf b0, ..., b(k-1)`. -/
  | ibuf (bs : List Byte)
  /-- `payload b0, ..., b(k-1)`. -/
  | payload (bs : List Byte)
  /-- `clr`. -/
  | clr
  /-- `wait`, of which `polls` reads saw BUSY = 1 before the last one. -/
  | wait (polls : Nat)
  /-- `rdobuf`, whose two reads of OBUF_LEN gave n. -/
  | rdobuf (n : Nat)
  deriving DecidableEq, Repr

end Sys2Proof
end

