-- ==== Sys2Proof/Machine/State.lean ====
section
/-! DEFINITION. The architectural state of the codec (spec/10_state.md R15), the model's own fields for the agents
outside it, the fault and refusal types, and the state right after power-on reset (R42, spec/70_reset_and_hazards.md
R143). -/

namespace Sys2Proof.Machine

/-- The buffer bytes that have been written since reset, by host address: PAYLOAD at 0x100, IBUF at 0x200, OBUF at
0x400 (R46). Addresses rise strictly. An address that is not listed has not been written and reads as no value of its
own: a read of it is a draw (R43), so no entry can equal what an unlisted address reads as. Log entry 10. -/
abbrev Memory := List Host.Cell

/-- The machine: the state R15 lists, then three fields of the model for the agents around the codec. -/
structure State where
  /-- OP, the code of the last accepted issue (R17). -/
  op : Byte
  /-- STATUS: ERR in bits 3:0, DONE in 4, BUSY in 5, STICKY in 6, bit 7 reserved (R18). -/
  status : Byte
  /-- CMD0 (R23). -/
  cmd0 : Byte
  /-- CMD1 (R24). -/
  cmd1 : Byte
  /-- LEN (R25). -/
  len : Byte
  /-- VARIANT, bit 0: 0 is StandardVariant, 1 is ExtendedVariant (R26). -/
  variant : BitVec 1
  /-- ARG (R27). -/
  arg : Word16
  /-- RES (R28). -/
  res : Word16
  /-- CONSUMED (R29). -/
  consumed : Word16
  /-- IBUF_LEN (R30). -/
  ibufLen : BitVec 9
  /-- OBUF_LEN (R31). -/
  obufLen : BitVec 9
  /-- PAYLOAD, IBUF and OBUF (R33, R34, R35). -/
  mem : Memory
  /-- PEND: empty, or the 4-byte frame of the one held LINK_SEND_ACK (R39). The code that PEND holds beside the frame is
  always 0x41 and stands in OP while the operation is held (R95, R124). Log entry 9. -/
  pend : Option (Vector Byte 4)
  /-- TXLOG, the frames the transport has accepted, oldest first (R38). -/
  txlog : List (List Byte)
  /-- The model's own: the steps still to come of the single total order (R57), the host's program (R16, R92) among
  them. Log entry 3. -/
  inputs : List Event
  /-- The model's own: what the host's reads returned, oldest first. The codec never reads it. Log entry 4. -/
  reads : List (Addr × Byte)
  /-- The model's own: how many events have been taken, which tells one draw from the next (R43). Log entry 1. -/
  draws : Nat
  deriving DecidableEq, Repr

/-- The faults of the codec: there are none, so the type has no constructor. Errors are outcome codes in STATUS, never
traps (spec/60_exceptions.md R130), and no access raises a bus error (spec/20_memory.md R47). -/
inductive Fault where
  deriving DecidableEq, Repr

/-- The refusals of the model. -/
inductive Refusal where
  /-- Raised only by an arm of `exec` for an instruction that has no meaning yet. Safe: the run stops. No arm raises
  it. -/
  | notModelled (mnemonic : String)
  deriving DecidableEq, Repr

/-- What a step or an operation answers. -/
abbrev Answer := Host.Outcome State Fault Refusal

/-- The state right after power-on reset (R42, R143): every register 0, PEND and TXLOG empty, every buffer byte
unwritten. The model's own fields start empty (log entries 1, 3 and 4). -/
def State.reset : State where
  op := 0x00#8
  status := 0x00#8
  cmd0 := 0x00#8
  cmd1 := 0x00#8
  len := 0x00#8
  variant := 0#1
  arg := 0x0000#16
  res := 0x0000#16
  consumed := 0x0000#16
  ibufLen := 0#9
  obufLen := 0#9
  mem := []
  pend := none
  txlog := []
  inputs := []
  reads := []
  draws := 0

end Sys2Proof.Machine
end

