-- ==== Sys2Proof/Machine/Ops.lean ====
section
/-! DEFINITION. The operations every meaning shares: reading and writing the buffer bytes, the three outcomes of an
operation (spec/00_scope.md R13: commit, raise, hold), the start of an issue (spec/40_control.md R87), the completion of
a held operation (spec/44_link_ack.md R124) and RESET (spec/70_reset_and_hazards.md R143). -/

namespace Sys2Proof.Machine

/-- An address belongs to PAYLOAD, IBUF or OBUF (R46). -/
def isBufferAddr (a : Nat) : Bool :=
  decide (Config.payloadBase ≤ a ∧ a < Config.payloadBase + Config.payloadCap) ||
  decide (Config.ibufBase ≤ a ∧ a < Config.ibufBase + Config.ibufCap) ||
  decide (Config.obufBase ≤ a ∧ a < Config.obufBase + Config.obufCap)

/-- The canonical form: addresses rise strictly, and every listed address is a cell of a buffer. -/
abbrev Memory.wf (m : Memory) : Prop :=
  m.Pairwise (fun x y => x.1 < y.1) ∧ ∀ c ∈ m, isBufferAddr c.1 = true

/-- The byte written at an address, or none where no byte has been written since reset (R43). -/
def Memory.find : Memory → Nat → Option Byte
  | [], _ => none
  | (b, w) :: m, a => if a = b then some w else Memory.find m a

/-- The memory with one byte written, its addresses still rising. -/
def Memory.put : Memory → Nat → Byte → Memory
  | [], a, v => [(a, v)]
  | (b, w) :: m, a, v =>
    if a < b then (a, v) :: (b, w) :: m
    else if a = b then (a, v) :: m
    else (b, w) :: Memory.put m a v

/-- The memory with consecutive bytes written from an address on. -/
def Memory.putBytes : Memory → Nat → List Byte → Memory
  | m, _, [] => m
  | m, a, v :: vs => Memory.putBytes (Memory.put m a v) (a + 1) vs

/-- The value a read of a buffer byte gives: what was written, or the draw of this step at this address (R43). -/
def State.bufByte (s : State) (a : Nat) : Byte := (s.mem.find a).getD (Config.drawByte s.draws a)

/-- OBUF[0..n) and OBUF_LEN for an output of n bytes: OBUF[n..260) keeps its contents (R35). -/
def State.writeOut (s : State) (bs : List Byte) : State :=
  { s with mem := s.mem.putBytes Config.obufBase bs, obufLen := BitVec.ofNat 9 bs.length }

/-- PAYLOAD[0..n) for a decoded payload of n bytes: PAYLOAD[n..250) keeps its contents (R33). -/
def State.writePayload (s : State) (bs : List Byte) : State :=
  { s with mem := s.mem.putBytes Config.payloadBase bs }

/-- The engine accepts the code v: OP holds it and DONE is 0 (R87, R95). -/
def State.beginIssue (s : State) (v : Byte) : State := { s with op := v, status := Status.clearDone s.status }

/-- An operation commits: its staged writes stand in s already; ERR <- 0 and DONE <- 1 (R131). -/
def commit (s : State) : Answer := .next { s with status := Status.committed s.status }

/-- An operation raises kind k in state s: its staged writes are discarded, and only STATUS changes (R132). This is
what the codec has in place of taking an exception: nothing is vectored and no mode changes (R130), and there is no
return from it (R135). -/
def raise (k : ErrorKind) (s : State) : Answer := .next { s with status := Status.raised k s.status }

/-- An operation holds: PEND takes its frame and BUSY is set (R87, R124). -/
def hold (f : Vector Byte 4) (s : State) : Answer :=
  .next { s with pend := some f, status := Status.setBusy s.status }

/-- The transport-accept step (R124, R137): the transport takes the whole held frame as one write and the held
operation completes. The step is not enabled while PEND is empty: then nothing happens (log entry 5). -/
def transportAccept (s : State) : State :=
  match s.pend with
  | none => s
  | some f =>
    { s.writeOut f.toList with
      txlog := s.txlog ++ [f.toList]
      res := f[1] ++ f[2]
      pend := none
      status := Status.accepted s.status }

/-- The RESET step (R143, R144): every field as after power-on, but TXLOG is kept. The fields of the model for the
agents around the codec are not the codec's to reset (log entry 8). -/
def assertReset (s : State) : State :=
  { State.reset with txlog := s.txlog, inputs := s.inputs, reads := s.reads, draws := s.draws }

end Sys2Proof.Machine
end

