-- ==== Sys2Proof/Machine/Operands.lean ====
section
/-! DEFINITION. The operands of the operations (spec/10_state.md section 8): byte halves of a 16-bit register, the
fields of CMD0, and the byte sequences IBUF[i..i+n) and PAYLOAD[0..n). An operation reads every operand from the state
at its issue (spec/00_scope.md R13, spec/40_control.md R93), each byte once (log entry 7). -/

namespace Sys2Proof.Machine

/-- Bits 7:0 of a 16-bit value (R51). -/
def lowByte (w : Word16) : Byte := w.extractLsb' 0 8

/-- Bits 15:8 of a 16-bit value (R51). -/
def highByte (w : Word16) : Byte := w.extractLsb' 8 8

/-- The 16-bit value of two bytes, `zext16(hi) << 8 | zext16(lo)` (R80). -/
def wordOf (hi lo : Byte) : Word16 := hi ++ lo

/-- ARG[7:0], the control byte or sequence number (R27). -/
def State.argByte (s : State) : Byte := lowByte s.arg

/-- The `type` field of a cmd0 byte, bits 7:5 (R67). -/
def typeField (cmd0 : Byte) : BitVec 3 := cmd0.extractLsb' 5 3

/-- The `subsys` field of a cmd0 byte, bits 4:0 (R67). -/
def subsysField (cmd0 : Byte) : BitVec 5 := cmd0.extractLsb' 0 5

/-- IBUF[i] as an operation reads it (R34, R43). -/
def State.ibufByte (s : State) (i : Nat) : Byte := s.bufByte (Config.ibufBase + i)

/-- PAYLOAD[i] as an operation reads it (R33, R43). -/
def State.payloadByte (s : State) (i : Nat) : Byte := s.bufByte (Config.payloadBase + i)

/-- The byte sequence IBUF[i..i+n) (R11). -/
def State.ibufSlice (s : State) (i n : Nat) : List Byte := (List.range n).map (fun k => s.ibufByte (i + k))

/-- The byte sequence IBUF[0..IBUF_LEN) (R34). -/
def State.inputBytes (s : State) : List Byte := s.ibufSlice 0 s.ibufLen.toNat

/-- The byte sequence PAYLOAD[0..n) (R11). -/
def State.payloadSlice (s : State) (n : Nat) : List Byte := (List.range n).map s.payloadByte

/-- The header bytes [length, cmd0, cmd1] of the frame registers (R73). -/
def State.headerBytes (s : State) : List Byte := [s.len, s.cmd0, s.cmd1]

/-- The standard frame of the frame registers, its header followed by LEN payload bytes (R74). -/
def State.frameBytes (s : State) : List Byte := s.headerBytes ++ s.payloadSlice s.len.toNat

end Sys2Proof.Machine
end

