-- ==== Sys2Proof/Machine/CommandWord.lean ====
section
/-! DEFINITION. The Command Word Codec operations (spec/41_command_word.md), with the enumerations their results stand
for (spec/30_encoding.md R68, R69). -/

namespace Sys2Proof.Machine

/-- The command types (R68). -/
inductive CommandType where
  | poll | syncRequest | asyncRequest | syncResponse | reserved4 | reserved5 | reserved6 | reserved7
  deriving DecidableEq, Repr

/-- The type number (R68). -/
def CommandType.code : CommandType → BitVec 3
  | .poll => 0#3
  | .syncRequest => 1#3
  | .asyncRequest => 2#3
  | .syncResponse => 3#3
  | .reserved4 => 4#3
  | .reserved5 => 5#3
  | .reserved6 => 6#3
  | .reserved7 => 7#3

/-- The total map of the 3-bit field onto the command types (R68). -/
def CommandType.ofField (t : BitVec 3) : CommandType :=
  match t.toNat with
  | 0 => .poll
  | 1 => .syncRequest
  | 2 => .asyncRequest
  | 3 => .syncResponse
  | 4 => .reserved4
  | 5 => .reserved5
  | 6 => .reserved6
  | _ => .reserved7

/-- The subsystems (R69). -/
inductive Subsystem where
  | rpcError | system | mac | network | applicationFramework | zdo | simpleApi | util | debug | app | appConfig
  | greenPower
  deriving DecidableEq, Repr

/-- The code of a subsystem (R69). -/
def Subsystem.code : Subsystem → BitVec 5
  | .rpcError => 0x00#5
  | .system => 0x01#5
  | .mac => 0x02#5
  | .network => 0x03#5
  | .applicationFramework => 0x04#5
  | .zdo => 0x05#5
  | .simpleApi => 0x06#5
  | .util => 0x07#5
  | .debug => 0x08#5
  | .app => 0x09#5
  | .appConfig => 0x0F#5
  | .greenPower => 0x15#5

/-- The total map of the 5-bit field onto the subsystems, with RpcError for every unrecognised code (R69, R98). -/
def Subsystem.ofField (c : BitVec 5) : Subsystem :=
  match c.toNat with
  | 0x01 => .system
  | 0x02 => .mac
  | 0x03 => .network
  | 0x04 => .applicationFramework
  | 0x05 => .zdo
  | 0x06 => .simpleApi
  | 0x07 => .util
  | 0x08 => .debug
  | 0x09 => .app
  | 0x0F => .appConfig
  | 0x15 => .greenPower
  | _ => .rpcError

/-- `subsys_map` (R14, R98). -/
def subsysMap (c : BitVec 5) : BitVec 5 := (Subsystem.ofField c).code

/-- `name_known`: a code is in `NAME_SET` (R101). The set is open (log entry 2). -/
def nameKnown (c : BitVec 5) : Bool := (Config.subsystemName c).isSome

/-- CW_FROM_U16 (R96). -/
def execCwFromU16 (s : State) : Answer :=
  commit { s with cmd0 := lowByte s.arg, cmd1 := highByte s.arg }

/-- CW_FROM_BYTES (R97). -/
def execCwFromBytes (s : State) : Answer :=
  if s.ibufLen.toNat < 2 then raise .truncatedFrame s
  else commit { s with cmd0 := s.ibufByte 0, cmd1 := s.ibufByte 1, consumed := 2#16 }

/-- CW_SUBSYSTEM (R99). -/
def execCwSubsystem (s : State) : Answer :=
  commit { s with res := (subsysMap (subsysField s.cmd0)).setWidth 16 }

/-- CW_TYPE (R100). -/
def execCwType (s : State) : Answer :=
  commit { s with res := (CommandType.ofField (typeField s.cmd0)).code.setWidth 16 }

/-- The RES layout of CW_NAME: the masked code in bits 4:0, the known-name marker in bit 8 (R80, R102). -/
def nameResult (c : BitVec 5) : Word16 := ((BitVec.ofBool (nameKnown c)).setWidth 16 <<< 8) ||| c.setWidth 16

/-- CW_NAME, on the masked code (R102). -/
def execCwName (s : State) : Answer := commit { s with res := nameResult (subsysField s.cmd0) }

/-- CW_SERIALIZE (R103). -/
def execCwSerialize (s : State) : Answer := commit (s.writeOut [s.cmd0, s.cmd1])

end Sys2Proof.Machine
end

