-- ==== Sys2Proof/Machine/Control.lean ====
section
/-! DEFINITION. The control operations (spec/40_control.md): NOP, and the outcome of an illegal code. -/

namespace Sys2Proof.Machine

/-- NOP (R89). -/
def execNop (s : State) : Answer := commit s

/-- The outcome of every code that no row of the operation map holds (R65, R90). -/
def illegalOperation (s : State) : Answer := raise .illegalOperation s

end Sys2Proof.Machine
end

