-- ==== Sys2Proof/Machine/Checksum.lean ====
section
/-! DEFINITION. The two check values: the XOR fold (spec/43_monitor_envelope.md R112) and CRC-16/XMODEM
(spec/44_link_ack.md R120, whose parameters the spec marks as general knowledge: log entry 6). -/

namespace Sys2Proof.Machine

/-- `xor_fold` (R14, R112): every byte XORed once, from accumulator 0. -/
def xorFold (s : List Byte) : Byte := s.foldl (fun acc b => acc ^^^ b) 0x00#8

/-- One of the eight bit steps of R120: shift left, and XOR the polynomial 0x1021 if bit 15 was 1. -/
def crcBit (crc : Word16) : Word16 := if crc.getLsbD 15 then (crc <<< 1) ^^^ 0x1021#16 else crc <<< 1

/-- `crcBit` n times. -/
def crcBits : Nat → Word16 → Word16
  | 0, crc => crc
  | n + 1, crc => crcBits n (crcBit crc)

/-- One byte of R120: XOR it into the upper half, then eight bit steps. -/
def crcByte (crc : Word16) (b : Byte) : Word16 := crcBits 8 (crc ^^^ (b.setWidth 16 <<< 8))

/-- `crc16_xmodem` (R14, R120). -/
def crc16Xmodem (s : List Byte) : Word16 := s.foldl crcByte 0x0000#16

end Sys2Proof.Machine
end

