-- ==== Sys2Proof/Machine/LinkAck.lean ====
section
/-! DEFINITION. The Link Acknowledgement Framer operations (spec/44_link_ack.md). Frames are emitted without escaping
(R126). -/

namespace Sys2Proof.Machine

/-- `ctrl_frame` (R14, R121): control byte and payload, their CRC big-endian, then the terminator. -/
def ctrlFrame (c : Byte) (p : List Byte) : List Byte :=
  (c :: p) ++ [highByte (crc16Xmodem (c :: p)), lowByte (crc16Xmodem (c :: p)), Config.linkTerminator]

/-- `ack_ctrl`, the control byte of an acknowledgement (R78, R123). -/
def ackCtrl (seq : Byte) : Byte := Config.ackFlag ||| (seq &&& Config.seqMask)

/-- The 4-byte frame `ctrl_frame(ack_ctrl(seq), [])` that LINK_SEND_ACK builds at issue (R124). -/
def ackFrame (seq : Byte) : Vector Byte 4 := ⟨(ctrlFrame (ackCtrl seq) []).toArray, rfl⟩

/-- LINK_MAKE_CTRL (R122). -/
def execLinkMakeCtrl (s : State) : Answer :=
  commit { s.writeOut (ctrlFrame s.argByte s.inputBytes) with res := crc16Xmodem (s.argByte :: s.inputBytes) }

/-- LINK_SEND_ACK at issue: it always holds (R124). Its completion is the transport-accept step. -/
def execLinkSendAck (s : State) : Answer := hold (ackFrame s.argByte) s

/-- The frame number of a received control byte, bits 6:4 (R79). -/
def frameNumber (b : Byte) : BitVec 3 := b.extractLsb' 4 3

/-- The retransmit flag of a received control byte, bit 3 (R79). -/
def retransmitFlag (b : Byte) : BitVec 1 := b.extractLsb' 3 1

/-- The acknowledgement sequence to send back, `(frame_number + 1) & 0x07` (R79). -/
def ackSequence (b : Byte) : BitVec 3 := frameNumber b + 1#3

/-- LINK_PARSE_CTRL, in the RES layout of R80 (R125). -/
def execLinkParseCtrl (s : State) : Answer :=
  commit { s with
    res := ((ackSequence s.argByte).setWidth 16 <<< 4) |||
      ((retransmitFlag s.argByte).setWidth 16 <<< 3) ||| (frameNumber s.argByte).setWidth 16 }

end Sys2Proof.Machine
end

