-- ==== Sys2Proof/Machine/StandardFrame.lean ====
section
/-! DEFINITION. The Standard Frame Codec operations (spec/42_standard_frame.md). None reads or writes VARIANT (R111). -/

namespace Sys2Proof.Machine

/-- A length byte that a header may not hold: above 250 (R105). -/
def lengthTooLong (b : Byte) : Bool := decide (Config.payloadMax < b.toNat)

/-- The staged writes of HDR_FROM_BYTES (R106). -/
def State.decodedHeader (s : State) : State :=
  { s with len := s.ibufByte 0, cmd0 := s.ibufByte 1, cmd1 := s.ibufByte 2, consumed := 3#16 }

/-- HDR_FROM_BYTES (R106). -/
def execHdrFromBytes (s : State) : Answer :=
  if s.ibufLen.toNat < 3 then raise .truncatedFrame s
  else if lengthTooLong (s.ibufByte 0) then raise .invalidLength s
  else commit s.decodedHeader

/-- HDR_SERIALIZE, which never fails (R107). -/
def execHdrSerialize (s : State) : Answer := commit (s.writeOut s.headerBytes)

/-- The staged writes of FRAME_FROM_BYTES, for N = IBUF[0] (R108). -/
def State.decodedFrame (s : State) : State :=
  { s.writePayload (s.ibufSlice 3 (s.ibufByte 0).toNat) with
    len := s.ibufByte 0
    cmd0 := s.ibufByte 1
    cmd1 := s.ibufByte 2
    consumed := BitVec.ofNat 16 (3 + (s.ibufByte 0).toNat) }

/-- FRAME_FROM_BYTES (R108). -/
def execFrameFromBytes (s : State) : Answer :=
  if s.ibufLen.toNat < 3 then raise .truncatedFrame s
  else if lengthTooLong (s.ibufByte 0) then raise .invalidLength s
  else if s.ibufLen.toNat < 3 + (s.ibufByte 0).toNat then raise .truncatedFrame s
  else commit s.decodedFrame

/-- FRAME_SERIALIZE (R109). -/
def execFrameSerialize (s : State) : Answer :=
  if lengthTooLong s.len then raise .invalidLength s
  else commit (s.writeOut s.frameBytes)

end Sys2Proof.Machine
end

