-- ==== Sys2Proof/Machine/MonitorEnvelope.lean ====
section
/-! DEFINITION. The Monitor Frame Envelope operations (spec/43_monitor_envelope.md). -/

namespace Sys2Proof.Machine

/-- The bytes of a monitor frame around the bytes of a standard frame (R75, R115). -/
def envelopeBytes (inner : List Byte) : List Byte := Config.sof :: inner ++ [xorFold inner]

/-- CHECKSUM (R113). -/
def execChecksum (s : State) : Answer := commit { s with res := (xorFold s.inputBytes).setWidth 16 }

/-- The FCS that ENV_FROM_BYTES computes, over the inner bytes IBUF[1..4+N) for N = IBUF[1] (R76, R114). -/
def State.inputFcs (s : State) : Byte := xorFold (s.ibufSlice 1 (3 + (s.ibufByte 1).toNat))

/-- The staged writes of ENV_FROM_BYTES, for N = IBUF[1] (R114). -/
def State.decodedEnvelope (s : State) : State :=
  { s.writePayload (s.ibufSlice 4 (s.ibufByte 1).toNat) with
    variant := 0#1
    len := s.ibufByte 1
    cmd0 := s.ibufByte 2
    cmd1 := s.ibufByte 3
    res := s.inputFcs.setWidth 16
    consumed := BitVec.ofNat 16 (5 + (s.ibufByte 1).toNat) }

/-- ENV_FROM_BYTES, its checks in the source's step order (R114, R133). -/
def execEnvFromBytes (s : State) : Answer :=
  if s.ibufLen.toNat < 1 ∨ s.ibufByte 0 ≠ Config.sof then raise .framingError s
  else if s.ibufLen.toNat < 2 then raise .framingError s
  else if s.ibufLen.toNat < 5 + (s.ibufByte 1).toNat then raise .framingError s
  else if s.ibufByte (4 + (s.ibufByte 1).toNat) ≠ s.inputFcs then raise .checksumMismatch s
  else if lengthTooLong (s.ibufByte 1) then raise .invalidLength s
  else commit s.decodedEnvelope

/-- ENV_SERIALIZE; UnsupportedVariant is checked first (R115). -/
def execEnvSerialize (s : State) : Answer :=
  if s.variant = 1#1 then raise .unsupportedVariant s
  else if lengthTooLong s.len then raise .invalidLength s
  else commit (s.writeOut (envelopeBytes s.frameBytes))

/-- ENV_COMMAND (R116). -/
def execEnvCommand (s : State) : Answer :=
  if s.variant = 1#1 then raise .unsupportedVariant s
  else commit { s with res := wordOf s.cmd1 s.cmd0 }

end Sys2Proof.Machine
end

