-- ==== Sys2Proof/Machine/Dispatch.lean ====
section
/-! DEFINITION. `perform` of spec/40_control.md R87 and R88: each operation's own rule, by constructor. The state given
is the one right after the engine accepted the code (`State.beginIssue`). -/

namespace Sys2Proof.Machine

def exec (i : Instr) (s : State) : Host.Outcome State Fault Refusal :=
  match i with
  | .nop => Sys2Proof.Machine.execNop s
  | .cwFromU16 => Sys2Proof.Machine.execCwFromU16 s
  | .cwFromBytes => Sys2Proof.Machine.execCwFromBytes s
  | .cwSubsystem => Sys2Proof.Machine.execCwSubsystem s
  | .cwType => Sys2Proof.Machine.execCwType s
  | .cwName => Sys2Proof.Machine.execCwName s
  | .cwSerialize => Sys2Proof.Machine.execCwSerialize s
  | .hdrFromBytes => Sys2Proof.Machine.execHdrFromBytes s
  | .hdrSerialize => Sys2Proof.Machine.execHdrSerialize s
  | .frameFromBytes => Sys2Proof.Machine.execFrameFromBytes s
  | .frameSerialize => Sys2Proof.Machine.execFrameSerialize s
  | .checksum => Sys2Proof.Machine.execChecksum s
  | .envFromBytes => Sys2Proof.Machine.execEnvFromBytes s
  | .envSerialize => Sys2Proof.Machine.execEnvSerialize s
  | .envCommand => Sys2Proof.Machine.execEnvCommand s
  | .linkMakeCtrl => Sys2Proof.Machine.execLinkMakeCtrl s
  | .linkSendAck => Sys2Proof.Machine.execLinkSendAck s
  | .linkParseCtrl => Sys2Proof.Machine.execLinkParseCtrl s

end Sys2Proof.Machine
end

