-- ==== Sys2Proof/Machine/HostPort.lean ====
section
/-! DEFINITION. The host port: the address map (spec/20_memory.md R46), host reads and writes (R45 to R52, R62), the
issue of an operation (spec/40_control.md R87), and what each event of the total order does (R57). -/

namespace Sys2Proof.Machine

/-- The location at an address, or none for a reserved address (R46, R47). -/
def locAt (a : Addr) : Option Loc :=
  match a.toNat with
  | 0x000 => some .op
  | 0x001 => some .status
  | 0x002 => some .cmd0
  | 0x003 => some .cmd1
  | 0x004 => some .len
  | 0x005 => some .variant
  | 0x006 => some .argLo
  | 0x007 => some .argHi
  | 0x008 => some .resLo
  | 0x009 => some .resHi
  | 0x00A => some .consumedLo
  | 0x00B => some .consumedHi
  | 0x00C => some .ibufLenLo
  | 0x00D => some .ibufLenHi
  | 0x00E => some .obufLenLo
  | 0x00F => some .obufLenHi
  | n =>
    if Config.payloadBase ≤ n ∧ n < Config.payloadBase + Config.payloadCap then some (.payload (n - Config.payloadBase))
    else if Config.ibufBase ≤ n ∧ n < Config.ibufBase + Config.ibufCap then some (.ibuf (n - Config.ibufBase))
    else if Config.obufBase ≤ n ∧ n < Config.obufBase + Config.obufCap then some (.obuf (n - Config.obufBase))
    else none

/-- The byte a location reads as: reserved bits read 0 (R22), wide registers are little-endian (R51), a never-written
buffer byte is a draw (R43). -/
def readLoc (l : Loc) (s : State) : Byte :=
  match l with
  | .op => s.op
  | .status => s.status
  | .cmd0 => s.cmd0
  | .cmd1 => s.cmd1
  | .len => s.len
  | .variant => s.variant.setWidth 8
  | .argLo => lowByte s.arg
  | .argHi => highByte s.arg
  | .resLo => lowByte s.res
  | .resHi => highByte s.res
  | .consumedLo => lowByte s.consumed
  | .consumedHi => highByte s.consumed
  | .ibufLenLo => s.ibufLen.extractLsb' 0 8
  | .ibufLenHi => (s.ibufLen.extractLsb' 8 1).setWidth 8
  | .obufLenLo => s.obufLen.extractLsb' 0 8
  | .obufLenHi => (s.obufLen.extractLsb' 8 1).setWidth 8
  | .payload i => s.bufByte (Config.payloadBase + i)
  | .ibuf i => s.bufByte (Config.ibufBase + i)
  | .obuf i => s.bufByte (Config.obufBase + i)

/-- The byte a host read returns; a reserved address reads 0x00 (R47). -/
def hostReadByte (a : Addr) (s : State) : Byte :=
  match locAt a with
  | some l => readLoc l s
  | none => 0x00#8

/-- A host read: no state of the codec changes (R48); the model records what the host saw. -/
def hostRead (a : Addr) (s : State) : State := { s with reads := s.reads ++ [(a, hostReadByte a s)] }

/-- IBUF_LEN after a write that would make it n: never above 256 (R52). -/
def clampIbufLen (n : Nat) : BitVec 9 := BitVec.ofNat 9 (min n Config.ibufCap)

/-- A host write to a location while the engine is not busy. Read-only locations ignore it (R50); OP and STATUS, whose
writes have side effects (R49), are handled by `hostWrite`. -/
def storeLoc (l : Loc) (v : Byte) (s : State) : State :=
  match l with
  | .op | .status => s
  | .cmd0 => { s with cmd0 := v }
  | .cmd1 => { s with cmd1 := v }
  | .len => { s with len := v }
  | .variant => { s with variant := v.extractLsb' 0 1 }
  | .argLo => { s with arg := wordOf (highByte s.arg) v }
  | .argHi => { s with arg := wordOf v (lowByte s.arg) }
  | .resLo | .resHi | .consumedLo | .consumedHi => s
  | .ibufLenLo => { s with ibufLen := clampIbufLen ((s.ibufLen.extractLsb' 8 1).toNat * 256 + v.toNat) }
  | .ibufLenHi =>
    { s with ibufLen := clampIbufLen ((v.extractLsb' 0 1).toNat * 256 + (s.ibufLen.extractLsb' 0 8).toNat) }
  | .obufLenLo | .obufLenHi => s
  | .payload i => { s with mem := s.mem.put (Config.payloadBase + i) v }
  | .ibuf i => { s with mem := s.mem.put (Config.ibufBase + i) v }
  | .obuf _ => s

/-- A host write to STATUS: honoured even while BUSY = 1, and only STICKY can change (R21). -/
def clearStatus (v : Byte) (s : State) : State := { s with status := Status.hostWritten v s.status }

/-- The issue of code v while BUSY = 0 (R87): accept the code, decode it (R84, R88), and run its rule or, where no row
matches, the illegal-operation outcome (R90). -/
def issue (v : Byte) (s : State) : Answer :=
  match decode v with
  | .ok i => exec i (s.beginIssue v)
  | .error (.illegalOperation _) => illegalOperation (s.beginIssue v)

/-- A host write: to STATUS always (R21); to anything else only while BUSY = 0 (R62); to OP it issues (R87). -/
def hostWrite (a : Addr) (v : Byte) (s : State) : Answer :=
  match locAt a with
  | some .status => .next (clearStatus v s)
  | some .op => if Status.busy s.status then .next s else issue v s
  | some l => if Status.busy s.status then .next s else .next (storeLoc l v s)
  | none => .next s

/-- What one event of the total order does (R57). -/
def takeEvent (e : Event) (s : State) : Answer :=
  match e with
  | .host (.read a) => .next (hostRead a s)
  | .host (.write a v) => hostWrite a v s
  | .accept => .next (transportAccept s)
  | .reset => .next (assertReset s)

/-- The state once the next event is taken from the total order: the rest is still to come, and the step's draws are
its own (R43). -/
def State.advance (s : State) (rest : List Event) : State := { s with inputs := rest, draws := s.draws + 1 }

/-- The host write that issues the operation a table word stands for (R81: `op <MNEMONIC>` is a write to 0x000). -/
def issueEvent (v : Byte) : Event := .host (.write 0x000#11 v)

end Sys2Proof.Machine
end

