-- ==== Sys2Proof/Machine/Step.lean ====
section
/-! DEFINITION. One atomic step of the single total order of spec/20_memory.md R57, and the placing of an operation
where the next step takes it. -/

namespace Sys2Proof.Machine

/-- One step: the next event of the total order happens. With no event to come the codec is idle and all state persists
(spec/60_exceptions.md R142). -/
def step (s : State) : Host.Outcome State Fault Refusal :=
  match s.inputs with
  | [] => .next s
  | e :: rest => takeEvent e (s.advance rest)

/-- The state whose next event is the host write to OP of the code a table word stands for. The codec fetches no
instruction (R16, R59): the code comes with the OP write, so this is where an operation is placed. Log entry 3. -/
def State.withFetchWord (s : State) (nbits w : Nat) : State :=
  { s with inputs := issueEvent (tableByte nbits w) :: s.inputs }

end Sys2Proof.Machine
end

