-- ==== Sys2Proof/Machine/HostProgram.lean ====
section
/-! DEFINITION. The encoding of a host program (spec/30_encoding.md R81 to R83): the address of each location, the
accesses each line stands for, when a `wait` or `rdobuf` line agrees with what the host read, and when a run is over
(spec/40_control.md R92). -/

namespace Sys2Proof.Machine

/-- The host address of a location (R46). -/
def locAddr (l : Loc) : Addr :=
  match l with
  | .op => 0x000#11
  | .status => 0x001#11
  | .cmd0 => 0x002#11
  | .cmd1 => 0x003#11
  | .len => 0x004#11
  | .variant => 0x005#11
  | .argLo => 0x006#11
  | .argHi => 0x007#11
  | .resLo => 0x008#11
  | .resHi => 0x009#11
  | .consumedLo => 0x00A#11
  | .consumedHi => 0x00B#11
  | .ibufLenLo => 0x00C#11
  | .ibufLenHi => 0x00D#11
  | .obufLenLo => 0x00E#11
  | .obufLenHi => 0x00F#11
  | .payload i => BitVec.ofNat 11 (Config.payloadBase + i)
  | .ibuf i => BitVec.ofNat 11 (Config.ibufBase + i)
  | .obuf i => BitVec.ofNat 11 (Config.obufBase + i)

/-- The address a line names (R81). -/
def targetAddr : Target → Addr
  | .loc l => locAddr l
  | .abs a => a

/-- The two bytes of a wide register, low byte first (R51, R83). -/
def wideRegLocs : WideReg → Loc × Loc
  | .arg => (.argLo, .argHi)
  | .res => (.resLo, .resHi)
  | .consumed => (.consumedLo, .consumedHi)
  | .ibufLen => (.ibufLenLo, .ibufLenHi)
  | .obufLen => (.obufLenLo, .obufLenHi)

/-- `rd16 <reg16>`: the low byte, then the high byte (R83). -/
def readWide (r : WideReg) : List Access :=
  [.read (locAddr (wideRegLocs r).1), .read (locAddr (wideRegLocs r).2)]

/-- Writes of bytes to consecutive cells, from index i on. -/
def writeCells (cell : Nat → Loc) : Nat → List Byte → List Access
  | _, [] => []
  | i, b :: bs => .write (locAddr (cell i)) b :: writeCells cell (i + 1) bs

/-- The accesses a line stands for, in order (R81, R83). `ibuf` writes IBUF_LEN's upper byte first (R149). -/
def expandLine : HostLine → List Access
  | .wr x v => [.write (targetAddr x) v]
  | .rd x => [.read (targetAddr x)]
  | .op i => [.write (locAddr .op) (encode i)]
  | .opRaw v => [.write (locAddr .op) v]
  | .wr16 v => [.write (locAddr .argLo) (lowByte v), .write (locAddr .argHi) (highByte v)]
  | .rd16 r => readWide r
  | .ibuf bs =>
    writeCells .ibuf 0 bs ++
      [.write (locAddr .ibufLenHi) (BitVec.ofNat 8 (bs.length / 256)),
       .write (locAddr .ibufLenLo) (BitVec.ofNat 8 (bs.length % 256))]
  | .payload bs => writeCells .payload 0 bs
  | .clr => [.write (locAddr .status) 0x40#8]
  | .wait polls => List.replicate (polls + 1) (.read (locAddr .status))
  | .rdobuf n => readWide .obufLen ++ (List.range n).map (fun i => .read (locAddr (.obuf i)))

/-- The encoding of a program: its accesses in order (R81). -/
def assemble (p : List HostLine) : List Access := p.flatMap expandLine

/-- The answers `vs` the host got while a line ran are those that end the line where its expansion does: `wait` reads
BUSY = 1 until its last read (R83), and `rdobuf` reads n from OBUF_LEN. -/
def lineAgrees (l : HostLine) (vs : List Byte) : Bool :=
  match l with
  | .wait polls => vs.map Status.busy == List.replicate polls true ++ [false]
  | .rdobuf n =>
    match vs with
    | lo :: hi :: _ => lo.toNat + 256 * (hi.extractLsb' 0 1).toNat == n
    | _ => false
  | .wr _ _ | .rd _ | .op _ | .opRaw _ | .wr16 _ | .rd16 _ | .ibuf _ | .payload _ | .clr => true

/-- The codec with a host program's accesses as the steps to come, with no transport or reset step among them. -/
def State.withProgram (s : State) (p : List HostLine) : State := { s with inputs := (assemble p).map Event.host }

/-- The event is an access of the host program, not a step of the transport or of the platform (R57). -/
def Event.isHostAccess : Event → Bool
  | .host _ => true
  | .accept | .reset => false

/-- A run is over: the host program has no more accesses and PEND is empty (R92). Transport-accept and RESET steps may
still be to come: they are not accesses of the program. -/
def State.runOver (s : State) : Bool := !s.inputs.any Event.isHostAccess && s.pend.isNone

end Sys2Proof.Machine
end

