-- ==== Sys2Proof/Machine/Views.lean ====
section
/-! DEFINITION. The values of the source's data model that the registers hold (spec/10_state.md R36, R37) and the
lengths a frame's bytes declare (spec/30_encoding.md R85). No operation depends on them: they are how a reader names
what the frame registers mean. -/

namespace Sys2Proof.Machine

/-- A CommandWord value, two octets (R37). -/
structure CommandWord where
  cmd0 : Byte
  cmd1 : Byte
  deriving DecidableEq, Repr

/-- A StandardFrame value: header and payload (R36). -/
structure StandardFrame where
  length : Byte
  cmd : CommandWord
  payload : List Byte
  deriving DecidableEq, Repr

/-- A MonitorFrame value (R36, R86). The Extended variant is a placeholder with no content (R117). -/
inductive MonitorFrame where
  | standardVariant (f : StandardFrame)
  | extendedVariant
  deriving DecidableEq, Repr

/-- The CommandWord the registers hold (R37). -/
def State.commandWord (s : State) : CommandWord := ⟨s.cmd0, s.cmd1⟩

/-- The MonitorFrame the registers hold (R36). -/
def State.monitorFrame (s : State) : MonitorFrame :=
  if s.variant = 1#1 then .extendedVariant
  else .standardVariant ⟨s.len, s.commandWord, s.payloadSlice (min s.len.toNat Config.payloadMax)⟩

/-- The length of the standard frame that begins with these bytes (R85). -/
def standardFrameLength : List Byte → Option Nat
  | b :: _ => some (3 + b.toNat)
  | [] => none

/-- The length of the monitor frame that begins with these bytes (R85). -/
def monitorFrameLength : List Byte → Option Nat
  | _ :: b :: _ => some (5 + b.toNat)
  | _ => none

end Sys2Proof.Machine
end

