-- ==== Sys2Proof/Safety.lean ====
section
/-! DEFINITION. What a legal state of the codec is, and the terms in which claims speak of outcomes: what STATUS becomes
on a commit or a raise (spec/60_exceptions.md R131, R132), an operation that raises, and the bytes a step stores. -/

namespace Sys2Proof.Machine

/-- A legal state: what the spec says of every state a run reaches. -/
structure State.Inv (s : State) : Prop where
  /-- Memory keeps its canonical form, and only cells of the three buffers are in it (R46). -/
  mem_wf : Memory.wf s.mem
  /-- IBUF_LEN is 0 to 256 (R30). -/
  ibufLen_le : s.ibufLen.toNat ≤ 256
  /-- OBUF_LEN is 0 to 260 (R31). -/
  obufLen_le : s.obufLen.toNat ≤ 260
  /-- OBUF[0..OBUF_LEN) has been written: it is the last output (R35, R152). -/
  output_written : ∀ i, i < s.obufLen.toNat → (s.mem.find (Config.obufBase + i)).isSome = true
  /-- CONSUMED is at most 5 + 250 (R29). -/
  consumed_le : s.consumed.toNat ≤ 255
  /-- ERR is 0 to 6 (R18, R129). -/
  err_le : (Status.err s.status).toNat ≤ 6
  /-- STATUS bit 7 reads 0 (R22). -/
  reserved_zero : Status.reserved s.status = false
  /-- BUSY is 1 exactly when PEND holds an operation (R20, R39). -/
  busy_iff_pend : Status.busy s.status = s.pend.isSome
  /-- While an operation is held, DONE is 0 (R19) and OP keeps LINK_SEND_ACK's code (R95). -/
  held_op : s.pend.isSome = true → Status.done s.status = false ∧ s.op = 0x41#8
  /-- DONE = 0 while idle means that nothing has been issued since reset (R19). -/
  never_issued : Status.done s.status = false → s.pend = none → s.op = 0x00#8 ∧ Status.err s.status = 0#4
  /-- A held frame is an acknowledgement frame (R39, R124). -/
  pend_ack : ∀ f, s.pend = some f → ∃ seq, f = ackFrame seq
  /-- The transport has only ever accepted acknowledgement frames (R38, R61). -/
  txlog_acks : ∀ f ∈ s.txlog, ∃ seq, f = (ackFrame seq).toList

/-- n steps from s (R57): the host interface's own run, at the model's types. -/
def runSteps (n : Nat) (s : State) : Answer := Sys2Proof.core.run n s

/-- What a commit makes of STATUS: ERR = 0, DONE = 1, the other bits unchanged (R131). -/
def CommitStatus (old new : Byte) : Prop :=
  new.extractLsb' 0 4 = 0#4 ∧ new.getLsbD 4 = true ∧ new.getLsbD 5 = old.getLsbD 5 ∧
    new.getLsbD 6 = old.getLsbD 6 ∧ new.getLsbD 7 = old.getLsbD 7

/-- What a raise with outcome code e makes of STATUS: ERR = e, DONE = 1, STICKY = 1, the other bits unchanged (R132). -/
def RaiseStatus (e : BitVec 4) (old new : Byte) : Prop :=
  new.extractLsb' 0 4 = e ∧ new.getLsbD 4 = true ∧ new.getLsbD 5 = old.getLsbD 5 ∧
    new.getLsbD 6 = true ∧ new.getLsbD 7 = old.getLsbD 7

/-- The answer to `exec i s` is a raise with outcome code e: a next state that differs from s in STATUS only (R132). -/
def Raises (i : Instr) (e : BitVec 4) (s : State) : Prop :=
  ∃ t, exec i s = .next t ∧ RaiseStatus e s.status t.status ∧ t = { s with status := t.status }

/-- Memory m' is m with the bytes bs stored from address a on, and every other address as before. -/
def Stored (a : Nat) (bs : List Byte) (m m' : Memory) : Prop :=
  ∀ x, m'.find x = if a ≤ x ∧ x < a + bs.length then bs[x - a]? else m.find x

/-- The next state t of an operation that emits the bytes bs: it commits, OBUF[0..n) holds bs, OBUF_LEN is n, every other
byte of memory is as before, and nothing else changes. -/
def Emits (i : Instr) (bs : List Byte) (s t : State) : Prop :=
  exec i s = .next t ∧ CommitStatus s.status t.status ∧ t.obufLen.toNat = bs.length ∧ Stored 0x400 bs s.mem t.mem ∧
    t = { s with status := t.status, obufLen := t.obufLen, mem := t.mem }

/-- The bytes IBUF[i..i+n) as an operation reads them. -/
def inputSpan (s : State) (i n : Nat) : List Byte := (List.range n).map (fun k => s.ibufByte (i + k))

/-- The bytes of the standard frame in the frame registers: length, cmd0, cmd1, then LEN payload bytes (R74). -/
def frameOf (s : State) : List Byte :=
  [s.len, s.cmd0, s.cmd1] ++ (List.range s.len.toNat).map (fun k => s.payloadByte k)

/-- The codec is idle and its next event is e. -/
def IdleBefore (e : Event) (rest : List Event) (s : State) : Prop :=
  s.inputs = e :: rest ∧ Status.busy s.status = false

end Sys2Proof.Machine
end

