-- ==== Sys2Proof/WellFormed.lean ====
section
/-! DEFINITION. Well-formedness of the operations and of the lines of a host program. An operation has no operand
field (spec/30_encoding.md R63, R66), so every term of `Instr` is well formed; the checks are on the host's lines:
buffer indices, the length limits of `ibuf` and `payload`, and raw codes that have no mnemonic (R81 to R83). -/

namespace Sys2Proof

/-- An operation carries no register, immediate or mode field (R63): there is nothing to check. -/
def Instr.wellFormed (_ : Instr) : Bool := true

/-- A buffer cell lies within its buffer (R33, R34, R35). -/
def Loc.wellFormed : Loc → Bool
  | .payload i => decide (i < Config.payloadCap)
  | .ibuf i => decide (i < Config.ibufCap)
  | .obuf i => decide (i < Config.obufCap)
  | .op | .status | .cmd0 | .cmd1 | .len | .variant
  | .argLo | .argHi | .resLo | .resHi | .consumedLo | .consumedHi
  | .ibufLenLo | .ibufLenHi | .obufLenLo | .obufLenHi => true

/-- A named cell is a cell of the map, and every 11-bit address may be accessed (R46, R47). -/
def Target.wellFormed : Target → Bool
  | .loc l => l.wellFormed
  | .abs _ => true

/-- A line is one R81 to R83 allow: `ibuf` takes at most 256 bytes, `payload` at most 250, `op 0x<hh>` is only for a
code with no mnemonic (R82), and OBUF_LEN never exceeds 260 (R31). -/
def HostLine.wellFormed : HostLine → Bool
  | .wr x _ => x.wellFormed
  | .rd x => x.wellFormed
  | .op i => i.wellFormed
  | .opRaw v => (decode v).toOption.isNone
  | .wr16 _ => true
  | .rd16 _ => true
  | .ibuf bs => decide (bs.length ≤ Config.ibufCap)
  | .payload bs => decide (bs.length ≤ Config.payloadCap)
  | .clr => true
  | .wait _ => true
  | .rdobuf n => decide (n ≤ Config.obufCap)

end Sys2Proof
end

