-- ==== Sys2Proof/Certificates/Slice0/Obligations.lean ====
section
/-! DEFINITION. The statements for the provers, each from the rules of spec/ its docstring names. In every statement about
a step, `inputs := rest`, the `draws` counter and the entry appended to `reads` are the model's own fields (log entries 1,
3 and 4), not the spec's. `TxlogOnlyGrowsByAckFrames` and the LINK_SEND_ACK statements name frames by the CRC of R120, whose
parameters the spec marks as general knowledge (log entry 6). -/

open Sys2Proof Sys2Proof.Machine

/-! ### Operation codes and the address map -/

/-- The 18 codes of the operation map, each in its component family (R64). -/
def Obligations.OperationCodesDecode : Prop :=
  (decode 0x00#8 = .ok .nop ∧ Instr.family .nop = .control) ∧
  (decode 0x10#8 = .ok .cwFromU16 ∧ Instr.family .cwFromU16 = .commandWord) ∧
  (decode 0x11#8 = .ok .cwFromBytes ∧ Instr.family .cwFromBytes = .commandWord) ∧
  (decode 0x12#8 = .ok .cwSubsystem ∧ Instr.family .cwSubsystem = .commandWord) ∧
  (decode 0x13#8 = .ok .cwType ∧ Instr.family .cwType = .commandWord) ∧
  (decode 0x14#8 = .ok .cwName ∧ Instr.family .cwName = .commandWord) ∧
  (decode 0x15#8 = .ok .cwSerialize ∧ Instr.family .cwSerialize = .commandWord) ∧
  (decode 0x20#8 = .ok .hdrFromBytes ∧ Instr.family .hdrFromBytes = .standardFrame) ∧
  (decode 0x21#8 = .ok .hdrSerialize ∧ Instr.family .hdrSerialize = .standardFrame) ∧
  (decode 0x22#8 = .ok .frameFromBytes ∧ Instr.family .frameFromBytes = .standardFrame) ∧
  (decode 0x23#8 = .ok .frameSerialize ∧ Instr.family .frameSerialize = .standardFrame) ∧
  (decode 0x30#8 = .ok .checksum ∧ Instr.family .checksum = .monitorEnvelope) ∧
  (decode 0x31#8 = .ok .envFromBytes ∧ Instr.family .envFromBytes = .monitorEnvelope) ∧
  (decode 0x32#8 = .ok .envSerialize ∧ Instr.family .envSerialize = .monitorEnvelope) ∧
  (decode 0x33#8 = .ok .envCommand ∧ Instr.family .envCommand = .monitorEnvelope) ∧
  (decode 0x40#8 = .ok .linkMakeCtrl ∧ Instr.family .linkMakeCtrl = .linkAck) ∧
  (decode 0x41#8 = .ok .linkSendAck ∧ Instr.family .linkSendAck = .linkAck) ∧
  (decode 0x42#8 = .ok .linkParseCtrl ∧ Instr.family .linkParseCtrl = .linkAck)

/-- Decoding and encoding agree in both directions, and a byte is turned away, by name, exactly when it is in the
ranges of R65, so that no two operations share a code and no bit of a code is dropped (R65, R84). -/
def Obligations.DecodeEncodeAgree : Prop :=
  (∀ i : Instr, i.wellFormed = true → decode (encode i) = .ok i) ∧
  (∀ (v : Byte) (i : Instr), decode v = .ok i → encode i = v) ∧
  (∀ v : Byte, decode v = .error (.illegalOperation v) ↔
    ((0x01 ≤ v.toNat ∧ v.toNat ≤ 0x0F) ∨ (0x16 ≤ v.toNat ∧ v.toNat ≤ 0x1F) ∨ (0x24 ≤ v.toNat ∧ v.toNat ≤ 0x2F) ∨
      (0x34 ≤ v.toNat ∧ v.toNat ≤ 0x3F) ∨ 0x43 ≤ v.toNat))

/-- The address map is one to one between the well-formed locations and the addresses that are not reserved, for every
cell of the three buffers, and the reserved ranges are those of R46. -/
def Obligations.AddressMapAgrees : Prop :=
  (∀ l : Loc, l.wellFormed = true → locAt (locAddr l) = some l) ∧
  (∀ (a : Addr) (l : Loc), locAt a = some l → l.wellFormed = true ∧ locAddr l = a) ∧
  (∀ a : Addr, locAt a = none ↔
    ((0x010 ≤ a.toNat ∧ a.toNat ≤ 0x0FF) ∨ (0x1FA ≤ a.toNat ∧ a.toNat ≤ 0x1FF) ∨
      (0x300 ≤ a.toNat ∧ a.toNat ≤ 0x3FF) ∨ 0x504 ≤ a.toNat))

/-! ### The machine -/

/-- A host write of a defined code to OP while BUSY = 0 runs that operation's rule on the state the engine accepted it
in: OP holds the code and DONE is 0 (R87, R88). Around it the step takes the event off the total order and counts itself
(the model's own fields, log entries 1 and 3). -/
def Obligations.StepRunsDecodedOperation : Prop :=
  ∀ (s : State) (v : Byte) (i : Instr) (rest : List Event),
    s.inputs = .host (.write 0x000#11 v) :: rest → s.status.getLsbD 5 = false → decode v = .ok i → i.wellFormed = true →
    step s = exec i { s with inputs := rest, draws := s.draws + 1, op := v, status := s.status &&& 0xEF#8 }

/-- Every step of every state answers a next state: errors are results, never traps, and no access faults (R130, R47).
That an event which is not enabled still answers is the model's choice, log entry 5. -/
def Obligations.StepAlwaysAnswersNext : Prop := ∀ s : State, ∃ t, step s = .next t

/-- With no event to come all state persists (R142). A transport-accept event while PEND is empty, a step that is not
enabled (R137), changes nothing but the model's own fields: the model's choice, log entry 5. A run is over exactly when no
access of the host program is to come and PEND is empty (R92), and from then on only a RESET step can change the codec. -/
def Obligations.IdleStateStays : Prop :=
  (∀ s : State, s.inputs = [] → step s = .next s) ∧
  (∀ (s : State) (rest : List Event), s.inputs = .accept :: rest → s.pend = none →
    step s = .next { s with inputs := rest, draws := s.draws + 1 }) ∧
  (∀ s : State, s.runOver = true ↔ (∀ x : Access, Event.host x ∉ s.inputs) ∧ s.pend = none) ∧
  (∀ (s : State) (e : Event) (rest : List Event), s.runOver = true → s.inputs = e :: rest → e ≠ .reset →
    ∃ t, step s = .next t ∧ t = { s with inputs := rest, draws := s.draws + 1 } ∧ t.runOver = true)

/-- The state after power-on reset is legal. -/
def Obligations.ResetIsLegal : Prop := State.Inv State.reset

/-- Every step from a legal state leads to a legal state. -/
def Obligations.StepKeepsLegal : Prop := ∀ s t : State, State.Inv s → step s = .next t → State.Inv t

/-- The reset values of R42: every register is 0, PEND and TXLOG are empty, and no buffer byte has been written. -/
def Obligations.ResetValues : Prop :=
  State.reset.op = 0x00#8 ∧ State.reset.status = 0x00#8 ∧ State.reset.cmd0 = 0x00#8 ∧ State.reset.cmd1 = 0x00#8 ∧
  State.reset.len = 0x00#8 ∧ State.reset.variant = 0#1 ∧ State.reset.arg = 0x0000#16 ∧ State.reset.res = 0x0000#16 ∧
  State.reset.consumed = 0x0000#16 ∧ State.reset.ibufLen = 0#9 ∧ State.reset.obufLen = 0#9 ∧
  State.reset.pend = none ∧ State.reset.txlog = [] ∧ ∀ a, State.reset.mem.find a = none

/-- A RESET step gives every register its reset value, empties PEND (cancelling a held operation, whose frame is not
sent), makes every buffer byte unwritten and leaves TXLOG as it was, from any state (R143, R144). -/
def Obligations.ResetStepCancelsAndKeepsTxlog : Prop :=
  ∀ (s : State) (rest : List Event), s.inputs = .reset :: rest →
    ∃ t, step s = .next t ∧ t.op = 0x00#8 ∧ t.status = 0x00#8 ∧ t.cmd0 = 0x00#8 ∧ t.cmd1 = 0x00#8 ∧ t.len = 0x00#8 ∧
      t.variant = 0#1 ∧ t.arg = 0x0000#16 ∧ t.res = 0x0000#16 ∧ t.consumed = 0x0000#16 ∧ t.ibufLen = 0#9 ∧
      t.obufLen = 0#9 ∧ t.pend = none ∧ (∀ a, t.mem.find a = none) ∧ t.txlog = s.txlog ∧
      t.inputs = rest ∧ t.reads = s.reads

/-- While BUSY = 1, a host write to any address but STATUS changes nothing, a write to STATUS is honoured (it clears STICKY
where bit 6 is set, and changes nothing else), and a host read is honoured (R62). -/
def Obligations.BusyIgnoresHostWrites : Prop :=
  ∀ (s : State) (a : Addr) (rest : List Event), s.status.getLsbD 5 = true →
    (∀ v : Byte, a ≠ 0x001#11 → s.inputs = .host (.write a v) :: rest →
      step s = .next { s with inputs := rest, draws := s.draws + 1 }) ∧
    (∀ v : Byte, a = 0x001#11 → s.inputs = .host (.write a v) :: rest →
      ∃ t, step s = .next t ∧ t.status.getLsbD 6 = (s.status.getLsbD 6 && !v.getLsbD 6) ∧
        t = { s with inputs := rest, draws := s.draws + 1, status := t.status } ∧
        ∀ k, k ≠ 6 → t.status.getLsbD k = s.status.getLsbD k) ∧
    (s.inputs = .host (.read a) :: rest →
      step s = .next { s with inputs := rest, draws := s.draws + 1,
                              reads := s.reads ++ [(a, hostReadByte a { s with draws := s.draws + 1 })] })

/-- A held operation leaves the held state only when the transport accepts its frame or at reset (R144): every other
event keeps PEND, BUSY = 1, DONE = 0, every other bit of STATUS but STICKY, and all the rest of the codec's state. -/
def Obligations.HeldUntilAcceptOrReset : Prop :=
  ∀ (s t : State) (e : Event) (rest : List Event), State.Inv s → s.pend.isSome = true → s.inputs = e :: rest →
    e ≠ .accept → e ≠ .reset → step s = .next t →
    t.status.getLsbD 5 = true ∧ t.status.getLsbD 4 = false ∧
    (∀ k, k ≠ 6 → t.status.getLsbD k = s.status.getLsbD k) ∧
    t = { s with status := t.status, inputs := rest, reads := t.reads, draws := s.draws + 1 }

/-- TXLOG is append-only along every run from a legal state, and every entry a run adds is one 4-byte acknowledgement
frame that begins with one of the control bytes 0x80 to 0x87 and ends with 0x7E (R38, R78). -/
def Obligations.TxlogOnlyGrowsByAckFrames : Prop :=
  ∀ (n : Nat) (s t : State), State.Inv s → runSteps n s = .next t →
    ∃ fs : List (List Byte), t.txlog = s.txlog ++ fs ∧
      ∀ f ∈ fs, f.length = 4 ∧ (∃ k, k < 8 ∧ f[0]? = some (BitVec.ofNat 8 (0x80 + k))) ∧ f[3]? = some 0x7E#8

/-- One step appends to TXLOG only if it is the transport's accept step of a held frame, and it then appends exactly
that frame as one entry (R38, R137). -/
def Obligations.OnlyAcceptAppendsToTxlog : Prop :=
  ∀ s t : State, step s = .next t →
    (∃ (f : Vector Byte 4) (rest : List Event), s.inputs = .accept :: rest ∧ s.pend = some f ∧
      t.txlog = s.txlog ++ [f.toList]) ∨ t.txlog = s.txlog

/-! ### The host port -/

/-- A host read changes no state of the codec, at any address, busy or not (R48); the byte it returns, which the model
records (log entry 4), is `hostReadByte` at that address in the state the step reads, whose values `HostReadValues` gives. -/
def Obligations.HostReadsHaveNoSideEffects : Prop :=
  ∀ (s : State) (a : Addr) (rest : List Event), s.inputs = .host (.read a) :: rest →
    ∃ t v, step s = .next t ∧ v = hostReadByte a { s with draws := s.draws + 1 } ∧ t.reads = s.reads ++ [(a, v)] ∧
      t = { s with inputs := rest, draws := s.draws + 1, reads := t.reads }

/-- What a host read returns at every address of the map: registers with reserved bits 0, wide registers low byte first,
every written buffer byte, and 0x00 at reserved addresses (R46, R22, R47, R51). -/
def Obligations.HostReadValues : Prop :=
  ∀ s : State,
    hostReadByte 0x000#11 s = s.op ∧ hostReadByte 0x001#11 s = s.status ∧ hostReadByte 0x002#11 s = s.cmd0 ∧
    hostReadByte 0x003#11 s = s.cmd1 ∧ hostReadByte 0x004#11 s = s.len ∧
    (hostReadByte 0x005#11 s).toNat = s.variant.toNat ∧
    (hostReadByte 0x006#11 s).toNat + 256 * (hostReadByte 0x007#11 s).toNat = s.arg.toNat ∧
    (hostReadByte 0x008#11 s).toNat + 256 * (hostReadByte 0x009#11 s).toNat = s.res.toNat ∧
    (hostReadByte 0x00A#11 s).toNat + 256 * (hostReadByte 0x00B#11 s).toNat = s.consumed.toNat ∧
    (hostReadByte 0x00C#11 s).toNat + 256 * (hostReadByte 0x00D#11 s).toNat = s.ibufLen.toNat ∧
    (hostReadByte 0x00E#11 s).toNat + 256 * (hostReadByte 0x00F#11 s).toNat = s.obufLen.toNat ∧
    (∀ (a : Addr) (v : Byte), ((0x100 ≤ a.toNat ∧ a.toNat ≤ 0x1F9) ∨ (0x200 ≤ a.toNat ∧ a.toNat ≤ 0x2FF) ∨
      (0x400 ≤ a.toNat ∧ a.toNat ≤ 0x503)) → s.mem.find a.toNat = some v → hostReadByte a s = v) ∧
    (∀ a : Addr, ((0x010 ≤ a.toNat ∧ a.toNat ≤ 0x0FF) ∨ (0x1FA ≤ a.toNat ∧ a.toNat ≤ 0x1FF) ∨
      (0x300 ≤ a.toNat ∧ a.toNat ≤ 0x3FF) ∨ 0x504 ≤ a.toNat) → hostReadByte a s = 0x00#8)

/-- A reserved address: a read returns 0x00, a write is ignored, and neither has a side effect (R47). -/
def Obligations.ReservedAddressesAreInert : Prop :=
  ∀ (s : State) (a : Addr) (rest : List Event),
    ((0x010 ≤ a.toNat ∧ a.toNat ≤ 0x0FF) ∨ (0x1FA ≤ a.toNat ∧ a.toNat ≤ 0x1FF) ∨
      (0x300 ≤ a.toNat ∧ a.toNat ≤ 0x3FF) ∨ 0x504 ≤ a.toNat) →
    (s.inputs = .host (.read a) :: rest →
      step s = .next { s with inputs := rest, draws := s.draws + 1, reads := s.reads ++ [(a, 0x00#8)] }) ∧
    (∀ v : Byte, s.inputs = .host (.write a v) :: rest →
      step s = .next { s with inputs := rest, draws := s.draws + 1 })

/-- A host write to a read-only address is ignored; a write to VARIANT stores bit 0, and a write to 0x00D stores bit 0 as
IBUF_LEN[8] subject to the clamp, the other bits being ignored (R50). -/
def Obligations.ReadOnlyAndReservedBitsIgnored : Prop :=
  ∀ (s : State) (a : Addr) (v : Byte) (rest : List Event), IdleBefore (.host (.write a v)) rest s →
    (((0x008 ≤ a.toNat ∧ a.toNat ≤ 0x00B) ∨ a.toNat = 0x00E ∨ a.toNat = 0x00F ∨
        (0x400 ≤ a.toNat ∧ a.toNat ≤ 0x503)) →
      step s = .next { s with inputs := rest, draws := s.draws + 1 }) ∧
    (a = 0x005#11 → ∃ t, step s = .next t ∧ t.variant.toNat = v.toNat % 2 ∧
      t = { s with inputs := rest, draws := s.draws + 1, variant := t.variant }) ∧
    (a = 0x00D#11 → ∃ t, step s = .next t ∧
      t.ibufLen.toNat = min (v.toNat % 2 * 256 + s.ibufLen.toNat % 256) 256 ∧
      t = { s with inputs := rest, draws := s.draws + 1, ibufLen := t.ibufLen })

/-- The host's writes to the read/write registers and buffer cells, and their frame: each stores its byte and changes
nothing else (R49, R23, R24, R25, R27, R33, R34). -/
def Obligations.HostWritesStore : Prop :=
  ∀ (s : State) (a : Addr) (v : Byte) (rest : List Event), IdleBefore (.host (.write a v)) rest s →
    (a = 0x002#11 → step s = .next { s with inputs := rest, draws := s.draws + 1, cmd0 := v }) ∧
    (a = 0x003#11 → step s = .next { s with inputs := rest, draws := s.draws + 1, cmd1 := v }) ∧
    (a = 0x004#11 → step s = .next { s with inputs := rest, draws := s.draws + 1, len := v }) ∧
    (a = 0x006#11 → ∃ t, step s = .next t ∧ t.arg.toNat = s.arg.toNat / 256 * 256 + v.toNat ∧
      t = { s with inputs := rest, draws := s.draws + 1, arg := t.arg }) ∧
    (a = 0x007#11 → ∃ t, step s = .next t ∧ t.arg.toNat = v.toNat * 256 + s.arg.toNat % 256 ∧
      t = { s with inputs := rest, draws := s.draws + 1, arg := t.arg }) ∧
    (((0x100 ≤ a.toNat ∧ a.toNat ≤ 0x1F9) ∨ (0x200 ≤ a.toNat ∧ a.toNat ≤ 0x2FF)) →
      ∃ t, step s = .next t ∧ Stored a.toNat [v] s.mem t.mem ∧
        t = { s with inputs := rest, draws := s.draws + 1, mem := t.mem })

/-- IBUF_LEN after a byte write is the smaller of the new 9-bit value and 256, for a write to either half (R52). -/
def Obligations.IbufLenWritesClamp : Prop :=
  ∀ (s : State) (v : Byte) (rest : List Event),
    (IdleBefore (.host (.write 0x00C#11 v)) rest s → ∃ t, step s = .next t ∧
      t.ibufLen.toNat = min (s.ibufLen.toNat / 256 * 256 + v.toNat) 256 ∧
      t = { s with inputs := rest, draws := s.draws + 1, ibufLen := t.ibufLen }) ∧
    (IdleBefore (.host (.write 0x00D#11 v)) rest s → ∃ t, step s = .next t ∧
      t.ibufLen.toNat = min (v.toNat % 2 * 256 + s.ibufLen.toNat % 256) 256 ∧
      t = { s with inputs := rest, draws := s.draws + 1, ibufLen := t.ibufLen })

/-- A host that writes 0x00D and then 0x00C with the two bytes of n, n < 512, leaves IBUF_LEN = min(n, 256), whatever it
was before. R149 says so of 9-bit values; the spec marks it as derived from R52. -/
def Obligations.HighByteFirstSetsIbufLen : Prop :=
  ∀ (s : State) (n : Nat) (rest : List Event), n < 512 →
    IdleBefore (.host (.write 0x00D#11 (BitVec.ofNat 8 (n / 256))))
      (.host (.write 0x00C#11 (BitVec.ofNat 8 (n % 256))) :: rest) s →
    ∃ t, runSteps 2 s = .next t ∧ t.ibufLen.toNat = min n 256 ∧
      t = { s with inputs := rest, draws := s.draws + 2, ibufLen := t.ibufLen }

/-- A host write to STATUS, busy or not: bit 6 = 1 clears STICKY, bit 6 = 0 leaves it, and no other bit of STATUS and no
other state changes (R21, its clauses about host writes). -/
def Obligations.StatusWriteOnlyClearsSticky : Prop :=
  ∀ (s : State) (v : Byte) (rest : List Event), s.inputs = .host (.write 0x001#11 v) :: rest →
    ∃ t, step s = .next t ∧ t.status.getLsbD 6 = (s.status.getLsbD 6 && !v.getLsbD 6) ∧
      (∀ k, k < 8 → k ≠ 6 → t.status.getLsbD k = s.status.getLsbD k) ∧
      t = { s with inputs := rest, draws := s.draws + 1, status := t.status }

/-- A never-written buffer byte reads as the draw of that step at that address, whatever the draw is, for the host and for
an operation (which draws each byte once: log entry 7, DEDUCED); a written byte reads as written; and no two steps that take an event share a count, so two reads need not
agree (R43). The counter is the model's own, log entry 1. -/
def Obligations.UnwrittenBytesAreDraws : Prop :=
  (∀ (s : State) (a : Addr), ((0x100 ≤ a.toNat ∧ a.toNat ≤ 0x1F9) ∨ (0x200 ≤ a.toNat ∧ a.toNat ≤ 0x2FF) ∨
      (0x400 ≤ a.toNat ∧ a.toNat ≤ 0x503)) → s.mem.find a.toNat = none →
      hostReadByte a s = Config.drawByte s.draws a.toNat) ∧
  (∀ (s : State) (i : Nat), s.mem.find (0x200 + i) = none → s.ibufByte i = Config.drawByte s.draws (0x200 + i)) ∧
  (∀ (s : State) (i : Nat), s.mem.find (0x100 + i) = none → s.payloadByte i = Config.drawByte s.draws (0x100 + i)) ∧
  (∀ (s : State) (i : Nat) (v : Byte), s.mem.find (0x200 + i) = some v → s.ibufByte i = v) ∧
  (∀ (s : State) (i : Nat) (v : Byte), s.mem.find (0x100 + i) = some v → s.payloadByte i = v) ∧
  (∀ s t : State, s.inputs ≠ [] → step s = .next t → t.draws = s.draws + 1)

/-- The `ibuf` line of a host program, run on an idle codec, loads IBUF[0..k) with its k bytes and sets IBUF_LEN = k, in
k + 2 steps, and changes nothing else (R83, with R149). -/
def Obligations.IbufLineLoadsBuffer : Prop :=
  ∀ (s : State) (bs : List Byte) (rest : List Event), (HostLine.ibuf bs).wellFormed = true →
    s.status.getLsbD 5 = false → s.inputs = (assemble [.ibuf bs]).map Event.host ++ rest →
    ∃ t, runSteps (bs.length + 2) s = .next t ∧ t.ibufLen.toNat = bs.length ∧ Stored 0x200 bs s.mem t.mem ∧
      t = { s with inputs := rest, draws := s.draws + (bs.length + 2), ibufLen := t.ibufLen, mem := t.mem }

/-- `rdobuf` on a legal state whose OBUF_LEN is n reads the two bytes of n and then OBUF[0..n), each byte as it was
written: no draw is read, and nothing else changes (R83, with R152). -/
def Obligations.RdobufReturnsOutput : Prop :=
  ∀ (s : State) (n : Nat) (rest : List Event), State.Inv s → n = s.obufLen.toNat →
    s.inputs = (assemble [.rdobuf n]).map Event.host ++ rest →
    ∃ t vs, runSteps (n + 2) s = .next t ∧ t.reads = s.reads ++ vs ∧ vs.length = n + 2 ∧
      lineAgrees (.rdobuf n) (vs.map Prod.snd) = true ∧
      (∀ k, k < n → ∃ v, s.mem.find (0x400 + k) = some v ∧ vs[k + 2]? = some (BitVec.ofNat 11 (0x400 + k), v)) ∧
      t = { s with inputs := rest, draws := s.draws + (n + 2), reads := t.reads }

/-! ### Control operations and outcomes -/

/-- NOP commits and changes nothing else; OP reads back 0x00 after its issue (R89). -/
def Obligations.NopCommits : Prop :=
  encode .nop = 0x00#8 ∧
  (∀ s : State, ∃ t, exec .nop s = .next t ∧ CommitStatus s.status t.status ∧ t = { s with status := t.status }) ∧
  (∀ (s : State) (rest : List Event), IdleBefore (.host (.write 0x000#11 0x00#8)) rest s →
    ∃ t, step s = .next t ∧ t.op = 0x00#8 ∧ CommitStatus s.status t.status ∧
      t = { s with inputs := rest, draws := s.draws + 1, op := t.op, status := t.status })

/-- Issuing any of the 238 illegal codes completes at once with IllegalOperation: ERR = 6, DONE = 1, STICKY = 1, OP holds
the code, and nothing else changes (R65, R90). -/
def Obligations.IllegalCodesRaise : Prop :=
  ∀ (s : State) (v : Byte) (rest : List Event), IdleBefore (.host (.write 0x000#11 v)) rest s →
    ((0x01 ≤ v.toNat ∧ v.toNat ≤ 0x0F) ∨ (0x16 ≤ v.toNat ∧ v.toNat ≤ 0x1F) ∨ (0x24 ≤ v.toNat ∧ v.toNat ≤ 0x2F) ∨
      (0x34 ≤ v.toNat ∧ v.toNat ≤ 0x3F) ∨ 0x43 ≤ v.toNat) →
    ∃ t, step s = .next t ∧ t.op = v ∧ RaiseStatus 6#4 s.status t.status ∧
      t = { s with inputs := rest, draws := s.draws + 1, op := t.op, status := t.status }

/-- An operation that ends with ERR ≠ 0 changes STATUS only, ends with DONE = 1, STICKY = 1 and a code of R129, for every
operation but LINK_SEND_ACK, which cannot raise (R132, R135). -/
def Obligations.RaisesArePrecise : Prop :=
  ∀ (i : Instr) (s t : State), i ≠ .linkSendAck → exec i s = .next t → t.status.extractLsb' 0 4 ≠ 0#4 →
    t = { s with status := t.status } ∧ (∃ k : ErrorKind, RaiseStatus k.code s.status t.status)

/-- The numbers of the error kinds (R129). -/
def Obligations.ErrorCodeNumbers : Prop :=
  ErrorKind.code .framingError = 1#4 ∧ ErrorKind.code .checksumMismatch = 2#4 ∧ ErrorKind.code .truncatedFrame = 3#4 ∧
  ErrorKind.code .unsupportedVariant = 4#4 ∧ ErrorKind.code .invalidLength = 5#4 ∧
  ErrorKind.code .illegalOperation = 6#4

/-- No operation's rule, run at issue after the engine has written OP, writes OP again, or ARG, IBUF_LEN, IBUF, TXLOG or the
record of the host's reads, and none takes or adds an event (R27, R30, R34, R38, R95). OP itself is written by the issue
(`StepRunsDecodedOperation`), and TXLOG by the later accept step of a held LINK_SEND_ACK (`TransportAcceptCompletes`). -/
def Obligations.OperationsKeepHostState : Prop :=
  ∀ (i : Instr) (s t : State), exec i s = .next t →
    t.op = s.op ∧ t.arg = s.arg ∧ t.ibufLen = s.ibufLen ∧ t.txlog = s.txlog ∧ t.inputs = s.inputs ∧
    t.reads = s.reads ∧ t.draws = s.draws ∧ (∀ a, 0x200 ≤ a → a < 0x300 → t.mem.find a = s.mem.find a)

/-- An operation's outcome never depends on STATUS: with any other STATUS, the answer agrees in every other field, and in
ERR too when the operation does not hold (R40). -/
def Obligations.OutcomeIgnoresStatus : Prop :=
  ∀ (i : Instr) (s t : State) (st : Byte), exec i s = .next t →
    ∃ u, exec i { s with status := st } = .next u ∧ u = { t with status := u.status } ∧
      (i ≠ .linkSendAck → u.status.extractLsb' 0 4 = t.status.extractLsb' 0 4)

/-- No operation stores a value above 250 in LEN (R25, R105). -/
def Obligations.DecodersKeepLengthInRange : Prop :=
  ∀ (i : Instr) (s t : State), exec i s = .next t → t.len = s.len ∨ t.len.toNat ≤ 250

/-- An operation reads no buffer byte but IBUF[0..IBUF_LEN) and PAYLOAD[0..LEN): two states that differ only in other buffer
bytes give the same answer in every register, and every byte of memory ends as it was or the same in both (R60, which the
spec marks as derived; R34). For never-written input bytes it rests on log entry 7 (DEDUCED: one draw for each byte). -/
def Obligations.OperationsReadOnlyTheirInput : Prop :=
  ∀ (i : Instr) (s r t u : State), r = { s with mem := r.mem } →
    (∀ k, k < s.ibufLen.toNat → r.ibufByte k = s.ibufByte k) →
    (∀ k, k < s.len.toNat → r.payloadByte k = s.payloadByte k) →
    exec i s = .next t → exec i r = .next u →
    u = { t with mem := u.mem } ∧
      ∀ a, (t.mem.find a = s.mem.find a ∧ u.mem.find a = r.mem.find a) ∨ u.mem.find a = t.mem.find a

/-! ### Command Word Codec -/

/-- CW_FROM_U16 splits ARG little-endian into CMD0 and CMD1, commits, and changes nothing else (R96). -/
def Obligations.CwFromU16Result : Prop :=
  encode .cwFromU16 = 0x10#8 ∧
  ∀ s : State, ∃ t, exec .cwFromU16 s = .next t ∧ CommitStatus s.status t.status ∧
    t.cmd0.toNat = s.arg.toNat % 256 ∧ t.cmd1.toNat = s.arg.toNat / 256 ∧
    t = { s with status := t.status, cmd0 := t.cmd0, cmd1 := t.cmd1 }

/-- CW_FROM_BYTES raises TruncatedFrame on fewer than 2 bytes, else takes CMD0 and CMD1 from IBUF[0] and IBUF[1], with
CONSUMED = 2 (R97); it builds the same word as CW_FROM_U16 with ARG = IBUF[1]·256 + IBUF[0], a clause the spec marks as
derived, from R96 and R97. -/
def Obligations.CwFromBytesResult : Prop :=
  encode .cwFromBytes = 0x11#8 ∧
  ∀ s : State,
    (s.ibufLen.toNat < 2 → Raises .cwFromBytes 3#4 s) ∧
    (2 ≤ s.ibufLen.toNat → ∃ t, exec .cwFromBytes s = .next t ∧ CommitStatus s.status t.status ∧
      t.cmd0 = s.ibufByte 0 ∧ t.cmd1 = s.ibufByte 1 ∧ t.consumed = 2#16 ∧
      t = { s with status := t.status, cmd0 := t.cmd0, cmd1 := t.cmd1, consumed := t.consumed } ∧
      ∀ r u : State, r.arg.toNat = (s.ibufByte 1).toNat * 256 + (s.ibufByte 0).toNat →
        exec .cwFromU16 r = .next u → u.cmd0 = t.cmd0 ∧ u.cmd1 = t.cmd1)

/-- CW_SUBSYSTEM puts the subsystem code of CMD0[4:0] in RES, with 0x00 for every code outside the defined twelve, and
changes nothing else (R98, R99). -/
def Obligations.CwSubsystemResult : Prop :=
  encode .cwSubsystem = 0x12#8 ∧
  ∀ s : State, ∃ t, exec .cwSubsystem s = .next t ∧ CommitStatus s.status t.status ∧
    t.res.toNat = (if s.cmd0.toNat % 32 ∈ [0x00, 0x01, 0x02, 0x03, 0x04, 0x05, 0x06, 0x07, 0x08, 0x09, 0x0F, 0x15]
      then s.cmd0.toNat % 32 else 0) ∧
    t = { s with status := t.status, res := t.res }

/-- CW_TYPE puts CMD0 >> 5 in RES, never raises, and changes nothing else (R100). -/
def Obligations.CwTypeResult : Prop :=
  encode .cwType = 0x13#8 ∧
  ∀ s : State, ∃ t, exec .cwType s = .next t ∧ CommitStatus s.status t.status ∧ t.res.toNat = s.cmd0.toNat / 32 ∧
    t = { s with status := t.status, res := t.res }

/-- CW_NAME puts the masked code in RES[4:0] and its membership in the open parameter `NAME_SET` in RES[8], every other
bit 0, for every value of the parameter, and changes nothing else (R101, R102). -/
def Obligations.CwNameResult : Prop :=
  encode .cwName = 0x14#8 ∧
  ∀ s : State, ∃ t, exec .cwName s = .next t ∧ CommitStatus s.status t.status ∧
    t.res.toNat = s.cmd0.toNat % 32 +
      (if (Config.subsystemName (BitVec.ofNat 5 (s.cmd0.toNat % 32))).isSome = true then 256 else 0) ∧
    t = { s with status := t.status, res := t.res }

/-- CW_SERIALIZE emits [CMD0, CMD1] (R103); after CW_FROM_U16 those are the little-endian bytes of ARG, a clause the spec
marks as derived, from R96 and R103. -/
def Obligations.CwSerializeResult : Prop :=
  encode .cwSerialize = 0x15#8 ∧
  (∀ s : State, ∃ t, Emits .cwSerialize [s.cmd0, s.cmd1] s t) ∧
  ∀ s t : State, exec .cwFromU16 s = .next t →
    ∃ u, Emits .cwSerialize [BitVec.ofNat 8 (s.arg.toNat % 256), BitVec.ofNat 8 (s.arg.toNat / 256)] t u

/-- The three classifications depend on CMD0 alone: on CMD0[4:0], CMD0[7:5] and CMD0[4:0] (R104; the spec marks the law as
derived). Two states that agree there get the same RES, whatever else differs. -/
def Obligations.ClassificationDependsOnCmd0Alone : Prop :=
  ∀ s r t u : State,
    (s.cmd0.toNat % 32 = r.cmd0.toNat % 32 → exec .cwSubsystem s = .next t → exec .cwSubsystem r = .next u →
      t.res = u.res) ∧
    (s.cmd0.toNat / 32 = r.cmd0.toNat / 32 → exec .cwType s = .next t → exec .cwType r = .next u → t.res = u.res) ∧
    (s.cmd0.toNat % 32 = r.cmd0.toNat % 32 → exec .cwName s = .next t → exec .cwName r = .next u → t.res = u.res)

/-! ### Standard Frame Codec -/

/-- HDR_FROM_BYTES: fewer than 3 bytes is TruncatedFrame, then a length byte above 250 is InvalidLength; otherwise LEN,
CMD0, CMD1 from the three bytes, CONSUMED = 3, and nothing else changes (R106). That LEN is the very byte that was checked
rests, where IBUF[0] has never been written, on log entry 7 (DEDUCED: one draw for each byte). -/
def Obligations.HdrFromBytesResult : Prop :=
  encode .hdrFromBytes = 0x20#8 ∧
  ∀ s : State,
    (s.ibufLen.toNat < 3 → Raises .hdrFromBytes 3#4 s) ∧
    (3 ≤ s.ibufLen.toNat → 250 < (s.ibufByte 0).toNat → Raises .hdrFromBytes 5#4 s) ∧
    (3 ≤ s.ibufLen.toNat → (s.ibufByte 0).toNat ≤ 250 →
      ∃ t, exec .hdrFromBytes s = .next t ∧ CommitStatus s.status t.status ∧
        t.len = s.ibufByte 0 ∧ t.cmd0 = s.ibufByte 1 ∧ t.cmd1 = s.ibufByte 2 ∧ t.consumed = 3#16 ∧
        t = { s with status := t.status, len := t.len, cmd0 := t.cmd0, cmd1 := t.cmd1, consumed := t.consumed })

/-- HDR_SERIALIZE emits [LEN, CMD0, CMD1] for every LEN and never fails (R107). -/
def Obligations.HdrSerializeResult : Prop :=
  encode .hdrSerialize = 0x21#8 ∧ ∀ s : State, ∃ t, Emits .hdrSerialize [s.len, s.cmd0, s.cmd1] s t

/-- FRAME_FROM_BYTES: its three checks in order, then LEN, CMD0, CMD1, PAYLOAD[0..N) from the input and CONSUMED = 3 + N;
every other byte of memory and every other register is unchanged (R108). -/
def Obligations.FrameFromBytesResult : Prop :=
  encode .frameFromBytes = 0x22#8 ∧
  ∀ s : State,
    (s.ibufLen.toNat < 3 → Raises .frameFromBytes 3#4 s) ∧
    (3 ≤ s.ibufLen.toNat → 250 < (s.ibufByte 0).toNat → Raises .frameFromBytes 5#4 s) ∧
    (3 ≤ s.ibufLen.toNat → (s.ibufByte 0).toNat ≤ 250 → s.ibufLen.toNat < 3 + (s.ibufByte 0).toNat →
      Raises .frameFromBytes 3#4 s) ∧
    (3 + (s.ibufByte 0).toNat ≤ s.ibufLen.toNat → (s.ibufByte 0).toNat ≤ 250 →
      ∃ t, exec .frameFromBytes s = .next t ∧ CommitStatus s.status t.status ∧
        t.len = s.ibufByte 0 ∧ t.cmd0 = s.ibufByte 1 ∧ t.cmd1 = s.ibufByte 2 ∧
        t.consumed.toNat = 3 + (s.ibufByte 0).toNat ∧
        Stored 0x100 (inputSpan s 3 (s.ibufByte 0).toNat) s.mem t.mem ∧
        t = { s with status := t.status, len := t.len, cmd0 := t.cmd0, cmd1 := t.cmd1, consumed := t.consumed,
                     mem := t.mem })

/-- FRAME_SERIALIZE raises InvalidLength for LEN > 250 and otherwise emits the header and PAYLOAD[0..LEN) (R109). -/
def Obligations.FrameSerializeResult : Prop :=
  encode .frameSerialize = 0x23#8 ∧
  ∀ s : State,
    (250 < s.len.toNat → Raises .frameSerialize 5#4 s) ∧
    (s.len.toNat ≤ 250 → ∃ t, Emits .frameSerialize (frameOf s) s t)

/-- The standard-frame round trip, both ways, for every LEN ≤ 250 and whatever else the second state holds (R110; the
spec marks the law as derived from R108 and R109). -/
def Obligations.StandardFrameRoundTrip : Prop :=
  (∀ s t u : State, s.len.toNat ≤ 250 → exec .frameSerialize s = .next t → u.ibufLen.toNat = 3 + s.len.toNat →
    (∀ k, k < 3 + s.len.toNat → u.mem.find (0x200 + k) = t.mem.find (0x400 + k)) →
    ∃ w, exec .frameFromBytes u = .next w ∧ CommitStatus u.status w.status ∧ w.len = s.len ∧ w.cmd0 = s.cmd0 ∧
      w.cmd1 = s.cmd1 ∧ w.consumed.toNat = 3 + s.len.toNat ∧
      ∀ k, k < s.len.toNat → w.mem.find (0x100 + k) = some (s.payloadByte k)) ∧
  (∀ s t : State, exec .frameFromBytes s = .next t → t.status.extractLsb' 0 4 = 0#4 →
    ∃ w, exec .frameSerialize t = .next w ∧ w.obufLen.toNat = 3 + (s.ibufByte 0).toNat ∧
      ∀ k, k < 3 + (s.ibufByte 0).toNat → w.mem.find (0x400 + k) = some (s.ibufByte k))

/-! ### Monitor Frame Envelope -/

/-- The XOR fold starts from 0 and takes every byte once (R112); it is the same for every order of the bytes, and changing
one byte always changes it, two laws the spec marks as derived from R112. -/
def Obligations.XorFoldLaws : Prop :=
  xorFold [] = 0x00#8 ∧
  (∀ (b : Byte) (s : List Byte), xorFold (b :: s) = b ^^^ xorFold s) ∧
  (∀ s r : List Byte, s.Perm r → xorFold s = xorFold r) ∧
  (∀ (s r : List Byte) (b c : Byte), b ≠ c → xorFold (s ++ b :: r) ≠ xorFold (s ++ c :: r))

/-- CHECKSUM puts the fold of IBUF[0..IBUF_LEN) in RES, never raises, and changes nothing else (R113). -/
def Obligations.ChecksumResult : Prop :=
  encode .checksum = 0x30#8 ∧
  ∀ s : State, ∃ t, exec .checksum s = .next t ∧ CommitStatus s.status t.status ∧
    t.res.toNat = (xorFold (inputSpan s 0 s.ibufLen.toNat)).toNat ∧ t = { s with status := t.status, res := t.res }

/-- ENV_FROM_BYTES: its five checks in order, then the frame registers, VARIANT = 0, RES = FCS and CONSUMED = 5 + N; every
other byte of memory and every other register is unchanged (R114). That the bytes stored are the very bytes folded rests,
for never-written input bytes, on log entry 7 (DEDUCED: one draw for each byte). -/
def Obligations.EnvFromBytesResult : Prop :=
  encode .envFromBytes = 0x31#8 ∧
  ∀ s : State,
    let n := (s.ibufByte 1).toNat
    let fcs := xorFold (inputSpan s 1 (3 + n))
    if s.ibufLen.toNat < 1 ∨ s.ibufByte 0 ≠ 0xFE#8 then Raises .envFromBytes 1#4 s
    else if s.ibufLen.toNat < 2 then Raises .envFromBytes 1#4 s
    else if s.ibufLen.toNat < 5 + n then Raises .envFromBytes 1#4 s
    else if s.ibufByte (4 + n) ≠ fcs then Raises .envFromBytes 2#4 s
    else if 250 < n then Raises .envFromBytes 5#4 s
    else ∃ t, exec .envFromBytes s = .next t ∧ CommitStatus s.status t.status ∧
      t.variant = 0#1 ∧ t.len = s.ibufByte 1 ∧ t.cmd0 = s.ibufByte 2 ∧ t.cmd1 = s.ibufByte 3 ∧
      t.res.toNat = fcs.toNat ∧ t.consumed.toNat = 5 + n ∧ Stored 0x100 (inputSpan s 4 n) s.mem t.mem ∧
      t = { s with status := t.status, variant := t.variant, len := t.len, cmd0 := t.cmd0, cmd1 := t.cmd1, res := t.res,
                   consumed := t.consumed, mem := t.mem }

/-- ENV_SERIALIZE raises UnsupportedVariant for the Extended variant, then InvalidLength for LEN > 250, and otherwise emits
0xFE, the standard frame and its fold (R115). -/
def Obligations.EnvSerializeResult : Prop :=
  encode .envSerialize = 0x32#8 ∧
  ∀ s : State,
    (s.variant = 1#1 → Raises .envSerialize 4#4 s) ∧
    (s.variant = 0#1 → 250 < s.len.toNat → Raises .envSerialize 5#4 s) ∧
    (s.variant = 0#1 → s.len.toNat ≤ 250 →
      ∃ t, Emits .envSerialize ([0xFE#8] ++ frameOf s ++ [xorFold (frameOf s)]) s t)

/-- ENV_COMMAND raises UnsupportedVariant for the Extended variant, else puts CMD1·256 + CMD0 in RES, from which
CW_FROM_U16 rebuilds the same word; nothing else changes (R116). -/
def Obligations.EnvCommandResult : Prop :=
  encode .envCommand = 0x33#8 ∧
  ∀ s : State,
    (s.variant = 1#1 → Raises .envCommand 4#4 s) ∧
    (s.variant = 0#1 → ∃ t, exec .envCommand s = .next t ∧ CommitStatus s.status t.status ∧
      t.res.toNat = s.cmd1.toNat * 256 + s.cmd0.toNat ∧ t = { s with status := t.status, res := t.res } ∧
      ∀ r u : State, r.arg = t.res → exec .cwFromU16 r = .next u → u.cmd0 = s.cmd0 ∧ u.cmd1 = s.cmd1)

/-- The envelope round trip, both ways, for every LEN ≤ 250 and whatever else the second state holds (R118; the spec marks
the law as derived from R114 and R115). Where the second half decodes never-written input bytes it rests on log entry 7
(DEDUCED: one draw for each byte). -/
def Obligations.EnvelopeRoundTrip : Prop :=
  (∀ s t u : State, s.variant = 0#1 → s.len.toNat ≤ 250 → exec .envSerialize s = .next t →
    u.ibufLen.toNat = 5 + s.len.toNat →
    (∀ k, k < 5 + s.len.toNat → u.mem.find (0x200 + k) = t.mem.find (0x400 + k)) →
    ∃ w, exec .envFromBytes u = .next w ∧ CommitStatus u.status w.status ∧ w.variant = 0#1 ∧ w.len = s.len ∧
      w.cmd0 = s.cmd0 ∧ w.cmd1 = s.cmd1 ∧ w.consumed.toNat = 5 + s.len.toNat ∧
      ∀ k, k < s.len.toNat → w.mem.find (0x100 + k) = some (s.payloadByte k)) ∧
  (∀ s t : State, exec .envFromBytes s = .next t → t.status.extractLsb' 0 4 = 0#4 →
    ∃ w, exec .envSerialize t = .next w ∧ w.obufLen.toNat = 5 + (s.ibufByte 1).toNat ∧
      ∀ k, k < 5 + (s.ibufByte 1).toNat → w.mem.find (0x400 + k) = some (s.ibufByte k))

/-- After ENV_FROM_BYTES commits, the registers hold a StandardVariant, never the Extended one, whose header and payload are
the input's (R36, R86, R114), and the input's second byte gives the frame's length, which CONSUMED reports (R85, R29,
R114). For never-written input bytes it rests on log entry 7 (DEDUCED: one draw for each byte). -/
def Obligations.DecodedEnvelopeIsStandardFrame : Prop :=
  ∀ s t : State, exec .envFromBytes s = .next t → t.status.extractLsb' 0 4 = 0#4 →
    t.monitorFrame = .standardVariant
      ⟨s.ibufByte 1, ⟨s.ibufByte 2, s.ibufByte 3⟩, inputSpan s 4 (s.ibufByte 1).toNat⟩ ∧
    monitorFrameLength (inputSpan s 0 s.ibufLen.toNat) = some t.consumed.toNat

/-- Corruption of one byte of a valid envelope of exactly 5 + N bytes is always detected: a changed byte 2 to 4 + N gives
ChecksumMismatch, a changed byte 0 or a larger length gives FramingError (R119; the spec marks the law as derived from
R112 and R114). Only the 5 + N envelope bytes of the two states are compared, so the second decode may be any later one. For
never-written envelope bytes it rests on log entry 7 (DEDUCED: one draw for each byte). -/
def Obligations.SingleByteCorruptionDetected : Prop :=
  ∀ (s t r : State) (j : Nat), exec .envFromBytes s = .next t → t.status.extractLsb' 0 4 = 0#4 →
    s.ibufLen.toNat = 5 + (s.ibufByte 1).toNat → r.ibufLen = s.ibufLen →
    (∀ k, k < 5 + (s.ibufByte 1).toNat → k ≠ j → r.ibufByte k = s.ibufByte k) → r.ibufByte j ≠ s.ibufByte j →
    (2 ≤ j → j ≤ 4 + (s.ibufByte 1).toNat → Raises .envFromBytes 2#4 r) ∧
    (j = 0 → Raises .envFromBytes 1#4 r) ∧
    (j = 1 → (s.ibufByte 1).toNat < (r.ibufByte 1).toNat → Raises .envFromBytes 1#4 r)

/-! ### Link Acknowledgement Framer -/

/-- The check value and the other ten CRC values that spec/95_test_vectors.md section 2.4 tabulates.
R120 marks the polynomial, the bit order and the check value as general knowledge, not the source's: log entry 6. -/
def Obligations.CrcCheckValues : Prop :=
  crc16Xmodem [0x31#8, 0x32#8, 0x33#8, 0x34#8, 0x35#8, 0x36#8, 0x37#8, 0x38#8, 0x39#8] = 0x31C3#16 ∧
  crc16Xmodem [] = 0x0000#16 ∧ crc16Xmodem [0x00#8] = 0x0000#16 ∧ crc16Xmodem [0x00#8, 0x00#8] = 0x0000#16 ∧
  crc16Xmodem [0x01#8] = 0x1021#16 ∧ crc16Xmodem [0x34#8] = 0x76D7#16 ∧ crc16Xmodem [0x7E#8] = 0x9F59#16 ∧
  crc16Xmodem [0x82#8] = 0xB1CA#16 ∧ crc16Xmodem [0xFF#8] = 0x1EF0#16 ∧
  crc16Xmodem [0x82#8, 0x01#8, 0x02#8] = 0x4649#16 ∧
  crc16Xmodem [0x25#8, 0x42#8, 0x21#8, 0xA8#8, 0xED#8] = 0xA1B5#16

/-- The CRC of a message followed by its own CRC, high byte first, is 0: so every link control frame without its
terminator has CRC 0. Rests on the CRC parameters that R120 marks as general knowledge (log entry 6). -/
def Obligations.FramesHaveZeroResidue : Prop :=
  (∀ m : List Byte, crc16Xmodem (m ++ [highByte (crc16Xmodem m), lowByte (crc16Xmodem m)]) = 0x0000#16) ∧
  (∀ (c : Byte) (p : List Byte), crc16Xmodem (ctrlFrame c p).dropLast = 0x0000#16 ∧
    (ctrlFrame c p).getLast? = some 0x7E#8 ∧ (ctrlFrame c p).length = p.length + 4)

/-- LINK_MAKE_CTRL emits the control byte ARG[7:0], the payload IBUF[0..IBUF_LEN), their CRC high byte first and 0x7E,
puts the CRC in RES, and changes nothing else (R121, R122; the CRC is R120's, log entry 6). IBUF_LEN ≤ 256 is R30, which
`StepKeepsLegal` keeps. That RES is the CRC of the frame emitted rests, for never-written payload bytes, on log entry 7
(DEDUCED: one draw for each byte). -/
def Obligations.LinkMakeCtrlResult : Prop :=
  encode .linkMakeCtrl = 0x40#8 ∧
  ∀ s : State, s.ibufLen.toNat ≤ 256 →
    let m := BitVec.ofNat 8 (s.arg.toNat % 256) :: inputSpan s 0 s.ibufLen.toNat
    let crc := (crc16Xmodem m).toNat
    ∃ t, exec .linkMakeCtrl s = .next t ∧ CommitStatus s.status t.status ∧ t.res.toNat = crc ∧
      t.obufLen.toNat = s.ibufLen.toNat + 4 ∧
      Stored 0x400 (m ++ [BitVec.ofNat 8 (crc / 256), BitVec.ofNat 8 (crc % 256), 0x7E#8]) s.mem t.mem ∧
      t = { s with status := t.status, res := t.res, obufLen := t.obufLen, mem := t.mem }

/-- LINK_SEND_ACK holds at issue, for every ARG: PEND takes the frame of control byte 0x80 + ARG[2:0] with no payload, BUSY
is set, the rest of STATUS and all other state is unchanged (R123, R124; the CRC is R120's, log entry 6). -/
def Obligations.LinkSendAckHolds : Prop :=
  encode .linkSendAck = 0x41#8 ∧
  ∀ s : State,
    let c : Byte := BitVec.ofNat 8 (0x80 + s.arg.toNat % 8)
    let crc := (crc16Xmodem [c]).toNat
    ∃ t f, exec .linkSendAck s = .next t ∧ t.pend = some f ∧
      f.toList = [c, BitVec.ofNat 8 (crc / 256), BitVec.ofNat 8 (crc % 256), 0x7E#8] ∧
      t.status.getLsbD 5 = true ∧ (∀ k, k ≠ 5 → t.status.getLsbD k = s.status.getLsbD k) ∧
      t = { s with status := t.status, pend := t.pend }

/-- The transport-accept step of a held frame: TXLOG takes the frame as one entry, OBUF[0..4) and OBUF_LEN take it, RES is
its two middle bytes, PEND is emptied, BUSY = 0, ERR = 0, DONE = 1, STICKY unchanged, and nothing else changes (R124,
R137). -/
def Obligations.TransportAcceptCompletes : Prop :=
  ∀ (s : State) (f : Vector Byte 4) (rest : List Event), s.inputs = .accept :: rest → s.pend = some f →
    ∃ t, step s = .next t ∧ t.txlog = s.txlog ++ [f.toList] ∧ Stored 0x400 f.toList s.mem t.mem ∧ t.obufLen = 4#9 ∧
      t.res.toNat = f[1].toNat * 256 + f[2].toNat ∧ t.pend = none ∧
      t.status.getLsbD 5 = false ∧ t.status.extractLsb' 0 4 = 0#4 ∧ t.status.getLsbD 4 = true ∧
      t.status.getLsbD 6 = s.status.getLsbD 6 ∧ t.status.getLsbD 7 = s.status.getLsbD 7 ∧
      t = { s with inputs := rest, draws := s.draws + 1, txlog := t.txlog, mem := t.mem, obufLen := t.obufLen,
                   res := t.res, pend := t.pend, status := t.status }

/-- An issued LINK_SEND_ACK, any number of host reads and ignored host writes later, sends the frame of the ARG it was
issued with: the operand was sampled at issue (R93). The CRC is R120's, log entry 6. -/
def Obligations.SendAckSendsSampledSequence : Prop :=
  ∀ (s : State) (xs : List Access) (rest : List Event), s.status.getLsbD 5 = false →
    s.inputs = .host (.write 0x000#11 0x41#8) :: (xs.map Event.host ++ .accept :: rest) →
    ∃ t, runSteps (xs.length + 2) s = .next t ∧
      t.txlog = s.txlog ++ [ctrlFrame (BitVec.ofNat 8 (0x80 + s.arg.toNat % 8)) []] ∧ t.arg = s.arg ∧ t.op = 0x41#8 ∧
      t.pend = none ∧ t.status.getLsbD 5 = false ∧ t.status.getLsbD 4 = true ∧ t.inputs = rest

/-- LINK_PARSE_CTRL: frame number in RES[2:0], retransmit flag in RES[3], acknowledgement sequence with its 3-bit
wraparound in RES[6:4], the rest 0; nothing else changes (R79, R125). -/
def Obligations.LinkParseCtrlResult : Prop :=
  encode .linkParseCtrl = 0x42#8 ∧
  ∀ s : State,
    let b := s.arg.toNat % 256
    ∃ t, exec .linkParseCtrl s = .next t ∧ CommitStatus s.status t.status ∧
      t.res.toNat = b / 16 % 8 + 8 * (b / 8 % 2) + 16 * ((b / 16 % 8 + 1) % 8) ∧
      t = { s with status := t.status, res := t.res }
end

