-- ==== Sys2Proof/Laws/Memory.lean ====
section
/-! SUPPORT. What reading, writing and the canonical form of memory do. -/

namespace Sys2Proof.Machine

@[simp] theorem Memory.find_nil (a : Nat) : Memory.find [] a = none := rfl

@[simp] theorem Memory.putBytes_nil (m : Memory) (a : Nat) : m.putBytes a [] = m := rfl

theorem Memory.putBytes_cons (m : Memory) (a : Nat) (v : Byte) (vs : List Byte) :
    m.putBytes a (v :: vs) = (m.put a v).putBytes (a + 1) vs := rfl

/-- A read after a write: the byte written at its own address, every other address as before. -/
theorem Memory.find_put (m : Memory) (a : Nat) (v : Byte) (x : Nat) :
    (m.put a v).find x = if x = a then some v else m.find x := by
  induction m with
  | nil => simp [Memory.put, Memory.find]
  | cons c m ih =>
    obtain ⟨b, w⟩ := c
    unfold Memory.put
    split
    · simp [Memory.find]
    · split
      · subst a; by_cases h : x = b <;> simp [Memory.find, h]
      · simp only [Memory.find, ih]
        by_cases h : x = b
        · subst h; simp [Ne.symm ‹¬a = x›]
        · simp [h]

/-- A read after a write of consecutive bytes. -/
theorem Memory.find_putBytes (m : Memory) (a : Nat) (vs : List Byte) (x : Nat) :
    (m.putBytes a vs).find x = if a ≤ x ∧ x < a + vs.length then vs[x - a]? else m.find x := by
  induction vs generalizing m a with
  | nil => rw [Memory.putBytes_nil, if_neg (by simp)]
  | cons v vs ih =>
    rw [Memory.putBytes_cons, ih, Memory.find_put, List.length_cons]
    by_cases h : x = a
    · subst h
      rw [if_neg (by omega), if_pos rfl, if_pos (by omega)]; simp
    · rw [if_neg h]
      by_cases h' : a ≤ x ∧ x < a + (vs.length + 1)
      · rw [if_pos (by omega), if_pos h', show x - a = (x - (a + 1)) + 1 by omega, List.getElem?_cons_succ]
      · rw [if_neg (by omega), if_neg h']

theorem Memory.find_putBytes_of_lt (m : Memory) (a : Nat) (vs : List Byte) (x : Nat) (h : x < a) :
    (m.putBytes a vs).find x = m.find x := by rw [Memory.find_putBytes, if_neg (by omega)]

theorem Memory.find_putBytes_of_ge (m : Memory) (a : Nat) (vs : List Byte) (x : Nat) (h : a + vs.length ≤ x) :
    (m.putBytes a vs).find x = m.find x := by rw [Memory.find_putBytes, if_neg (by omega)]

theorem Memory.find_putBytes_at (m : Memory) (a : Nat) (vs : List Byte) (k : Nat) (h : k < vs.length) :
    (m.putBytes a vs).find (a + k) = some vs[k] := by
  rw [Memory.find_putBytes, if_pos (by omega), Nat.add_sub_cancel_left, List.getElem?_eq_getElem h]

theorem Memory.mem_put (m : Memory) (a : Nat) (v : Byte) (c : Host.Cell) (h : c ∈ m.put a v) : c = (a, v) ∨ c ∈ m := by
  induction m with
  | nil => simpa [Memory.put] using h
  | cons d m ih =>
    obtain ⟨b, w⟩ := d
    unfold Memory.put at h
    split at h
    · simpa using h
    · split at h
      · rcases List.mem_cons.mp h with h | h
        · exact .inl h
        · exact .inr (List.mem_cons_of_mem _ h)
      · rcases List.mem_cons.mp h with h | h
        · exact .inr (h ▸ List.mem_cons_self ..)
        · exact (ih h).imp_right (List.mem_cons_of_mem _)

/-- A write to a buffer cell keeps the canonical form. -/
theorem Memory.wf_put (m : Memory) (a : Nat) (v : Byte) (h : m.wf) (ha : isBufferAddr a = true) : (m.put a v).wf := by
  refine ⟨?_, fun c hc => ?_⟩
  · have hp := h.1
    clear h
    induction m with
    | nil => simp [Memory.put]
    | cons d m ih =>
      obtain ⟨b, w⟩ := d
      rw [List.pairwise_cons] at hp
      unfold Memory.put
      split
      · rename_i hab
        refine List.pairwise_cons.mpr ⟨fun c hc => ?_, List.pairwise_cons.mpr hp⟩
        rcases List.mem_cons.mp hc with rfl | hc
        · exact hab
        · exact Nat.lt_trans hab (hp.1 c hc)
      · split
        · subst a; exact List.pairwise_cons.mpr hp
        · refine List.pairwise_cons.mpr ⟨fun c hc => ?_, ih hp.2⟩
          rcases Memory.mem_put m a v c hc with rfl | hc
          · simp only; omega
          · exact hp.1 c hc
  · rcases Memory.mem_put m a v c hc with rfl | hc
    · exact ha
    · exact h.2 c hc

/-- A write of consecutive bytes to buffer cells keeps the canonical form. -/
theorem Memory.wf_putBytes (m : Memory) (a : Nat) (vs : List Byte) (h : m.wf)
    (ha : ∀ k, k < vs.length → isBufferAddr (a + k) = true) : (m.putBytes a vs).wf := by
  induction vs generalizing m a with
  | nil => exact h
  | cons v vs ih =>
    refine ih _ _ (Memory.wf_put m a v h (ha 0 (by simp))) (fun k hk => ?_)
    rw [Nat.add_assoc, Nat.add_comm 1 k]
    exact ha (k + 1) (by simpa using hk)

theorem Memory.find_eq_none_of_lt (m : Memory) (a : Nat) (h : ∀ c ∈ m, a < c.1) : m.find a = none := by
  induction m with
  | nil => rfl
  | cons c m ih =>
    obtain ⟨b, w⟩ := c
    have hb : a < b := h _ (List.mem_cons_self ..)
    rw [Memory.find, if_neg (by omega)]
    exact ih fun c hc => h c (List.mem_cons_of_mem _ hc)

/-- The canonical form is canonical: two memories in it that read alike are equal. -/
theorem Memory.ext_of_wf (m n : Memory) (hm : m.wf) (hn : n.wf) (h : ∀ a, m.find a = n.find a) : m = n := by
  replace hm := hm.1
  replace hn := hn.1
  induction m generalizing n with
  | nil =>
    cases n with
    | nil => rfl
    | cons c n => obtain ⟨b, w⟩ := c; simpa [Memory.find] using h b
  | cons c m ih =>
    obtain ⟨b, w⟩ := c
    cases n with
    | nil => simpa [Memory.find] using h b
    | cons d n =>
      obtain ⟨e, x⟩ := d
      rw [List.pairwise_cons] at hm hn
      have hbe : b = e := by
        rcases Nat.lt_trichotomy b e with hlt | heq | hgt
        · have := h b
          rw [Memory.find, if_pos rfl, Memory.find, if_neg (by omega),
            Memory.find_eq_none_of_lt n b fun c hc => Nat.lt_trans hlt (hn.1 c hc)] at this
          simp at this
        · exact heq
        · have := h e
          rw [Memory.find, if_neg (by omega), Memory.find, if_pos rfl,
            Memory.find_eq_none_of_lt m e fun c hc => Nat.lt_trans hgt (hm.1 c hc)] at this
          simp at this
      subst hbe
      have hw : w = x := by simpa [Memory.find] using h b
      subst hw
      congr 1
      refine ih n (fun a => ?_) hm.2 hn.2
      by_cases hab : a = b
      · subst hab
        rw [Memory.find_eq_none_of_lt m a fun c hc => hm.1 c hc, Memory.find_eq_none_of_lt n a fun c hc => hn.1 c hc]
      · simpa [Memory.find, hab] using h a

end Sys2Proof.Machine
end

