-- ==== Sys2Proof/Laws/State.lean ====
section
/-! SUPPORT. One lemma per field per named update of the state, true by unfolding. -/

namespace Sys2Proof.Machine

section
variable (s : State) (bs : List Byte)

@[simp] theorem State.writeOut_op : (s.writeOut bs).op = s.op := rfl
@[simp] theorem State.writeOut_status : (s.writeOut bs).status = s.status := rfl
@[simp] theorem State.writeOut_cmd0 : (s.writeOut bs).cmd0 = s.cmd0 := rfl
@[simp] theorem State.writeOut_cmd1 : (s.writeOut bs).cmd1 = s.cmd1 := rfl
@[simp] theorem State.writeOut_len : (s.writeOut bs).len = s.len := rfl
@[simp] theorem State.writeOut_variant : (s.writeOut bs).variant = s.variant := rfl
@[simp] theorem State.writeOut_arg : (s.writeOut bs).arg = s.arg := rfl
@[simp] theorem State.writeOut_res : (s.writeOut bs).res = s.res := rfl
@[simp] theorem State.writeOut_consumed : (s.writeOut bs).consumed = s.consumed := rfl
@[simp] theorem State.writeOut_ibufLen : (s.writeOut bs).ibufLen = s.ibufLen := rfl
@[simp] theorem State.writeOut_obufLen : (s.writeOut bs).obufLen = BitVec.ofNat 9 bs.length := rfl
@[simp] theorem State.writeOut_mem : (s.writeOut bs).mem = s.mem.putBytes Config.obufBase bs := rfl
@[simp] theorem State.writeOut_pend : (s.writeOut bs).pend = s.pend := rfl
@[simp] theorem State.writeOut_txlog : (s.writeOut bs).txlog = s.txlog := rfl
@[simp] theorem State.writeOut_inputs : (s.writeOut bs).inputs = s.inputs := rfl
@[simp] theorem State.writeOut_reads : (s.writeOut bs).reads = s.reads := rfl
@[simp] theorem State.writeOut_draws : (s.writeOut bs).draws = s.draws := rfl

end

section
variable (s : State) (bs : List Byte)

@[simp] theorem State.writePayload_op : (s.writePayload bs).op = s.op := rfl
@[simp] theorem State.writePayload_status : (s.writePayload bs).status = s.status := rfl
@[simp] theorem State.writePayload_cmd0 : (s.writePayload bs).cmd0 = s.cmd0 := rfl
@[simp] theorem State.writePayload_cmd1 : (s.writePayload bs).cmd1 = s.cmd1 := rfl
@[simp] theorem State.writePayload_len : (s.writePayload bs).len = s.len := rfl
@[simp] theorem State.writePayload_variant : (s.writePayload bs).variant = s.variant := rfl
@[simp] theorem State.writePayload_arg : (s.writePayload bs).arg = s.arg := rfl
@[simp] theorem State.writePayload_res : (s.writePayload bs).res = s.res := rfl
@[simp] theorem State.writePayload_consumed : (s.writePayload bs).consumed = s.consumed := rfl
@[simp] theorem State.writePayload_ibufLen : (s.writePayload bs).ibufLen = s.ibufLen := rfl
@[simp] theorem State.writePayload_obufLen : (s.writePayload bs).obufLen = s.obufLen := rfl
@[simp] theorem State.writePayload_mem : (s.writePayload bs).mem = s.mem.putBytes Config.payloadBase bs := rfl
@[simp] theorem State.writePayload_pend : (s.writePayload bs).pend = s.pend := rfl
@[simp] theorem State.writePayload_txlog : (s.writePayload bs).txlog = s.txlog := rfl
@[simp] theorem State.writePayload_inputs : (s.writePayload bs).inputs = s.inputs := rfl
@[simp] theorem State.writePayload_reads : (s.writePayload bs).reads = s.reads := rfl
@[simp] theorem State.writePayload_draws : (s.writePayload bs).draws = s.draws := rfl

end

section
variable (s : State) (v : Byte)

@[simp] theorem State.beginIssue_op : (s.beginIssue v).op = v := rfl
@[simp] theorem State.beginIssue_status : (s.beginIssue v).status = Status.clearDone s.status := rfl
@[simp] theorem State.beginIssue_cmd0 : (s.beginIssue v).cmd0 = s.cmd0 := rfl
@[simp] theorem State.beginIssue_cmd1 : (s.beginIssue v).cmd1 = s.cmd1 := rfl
@[simp] theorem State.beginIssue_len : (s.beginIssue v).len = s.len := rfl
@[simp] theorem State.beginIssue_variant : (s.beginIssue v).variant = s.variant := rfl
@[simp] theorem State.beginIssue_arg : (s.beginIssue v).arg = s.arg := rfl
@[simp] theorem State.beginIssue_res : (s.beginIssue v).res = s.res := rfl
@[simp] theorem State.beginIssue_consumed : (s.beginIssue v).consumed = s.consumed := rfl
@[simp] theorem State.beginIssue_ibufLen : (s.beginIssue v).ibufLen = s.ibufLen := rfl
@[simp] theorem State.beginIssue_obufLen : (s.beginIssue v).obufLen = s.obufLen := rfl
@[simp] theorem State.beginIssue_mem : (s.beginIssue v).mem = s.mem := rfl
@[simp] theorem State.beginIssue_pend : (s.beginIssue v).pend = s.pend := rfl
@[simp] theorem State.beginIssue_txlog : (s.beginIssue v).txlog = s.txlog := rfl
@[simp] theorem State.beginIssue_inputs : (s.beginIssue v).inputs = s.inputs := rfl
@[simp] theorem State.beginIssue_reads : (s.beginIssue v).reads = s.reads := rfl
@[simp] theorem State.beginIssue_draws : (s.beginIssue v).draws = s.draws := rfl

end

section
variable (s : State) (rest : List Event)

@[simp] theorem State.advance_op : (s.advance rest).op = s.op := rfl
@[simp] theorem State.advance_status : (s.advance rest).status = s.status := rfl
@[simp] theorem State.advance_cmd0 : (s.advance rest).cmd0 = s.cmd0 := rfl
@[simp] theorem State.advance_cmd1 : (s.advance rest).cmd1 = s.cmd1 := rfl
@[simp] theorem State.advance_len : (s.advance rest).len = s.len := rfl
@[simp] theorem State.advance_variant : (s.advance rest).variant = s.variant := rfl
@[simp] theorem State.advance_arg : (s.advance rest).arg = s.arg := rfl
@[simp] theorem State.advance_res : (s.advance rest).res = s.res := rfl
@[simp] theorem State.advance_consumed : (s.advance rest).consumed = s.consumed := rfl
@[simp] theorem State.advance_ibufLen : (s.advance rest).ibufLen = s.ibufLen := rfl
@[simp] theorem State.advance_obufLen : (s.advance rest).obufLen = s.obufLen := rfl
@[simp] theorem State.advance_mem : (s.advance rest).mem = s.mem := rfl
@[simp] theorem State.advance_pend : (s.advance rest).pend = s.pend := rfl
@[simp] theorem State.advance_txlog : (s.advance rest).txlog = s.txlog := rfl
@[simp] theorem State.advance_inputs : (s.advance rest).inputs = rest := rfl
@[simp] theorem State.advance_reads : (s.advance rest).reads = s.reads := rfl
@[simp] theorem State.advance_draws : (s.advance rest).draws = s.draws + 1 := rfl

end

section
variable (s : State) (a : Addr)

@[simp] theorem hostRead_op : (hostRead a s).op = s.op := rfl
@[simp] theorem hostRead_status : (hostRead a s).status = s.status := rfl
@[simp] theorem hostRead_cmd0 : (hostRead a s).cmd0 = s.cmd0 := rfl
@[simp] theorem hostRead_cmd1 : (hostRead a s).cmd1 = s.cmd1 := rfl
@[simp] theorem hostRead_len : (hostRead a s).len = s.len := rfl
@[simp] theorem hostRead_variant : (hostRead a s).variant = s.variant := rfl
@[simp] theorem hostRead_arg : (hostRead a s).arg = s.arg := rfl
@[simp] theorem hostRead_res : (hostRead a s).res = s.res := rfl
@[simp] theorem hostRead_consumed : (hostRead a s).consumed = s.consumed := rfl
@[simp] theorem hostRead_ibufLen : (hostRead a s).ibufLen = s.ibufLen := rfl
@[simp] theorem hostRead_obufLen : (hostRead a s).obufLen = s.obufLen := rfl
@[simp] theorem hostRead_mem : (hostRead a s).mem = s.mem := rfl
@[simp] theorem hostRead_pend : (hostRead a s).pend = s.pend := rfl
@[simp] theorem hostRead_txlog : (hostRead a s).txlog = s.txlog := rfl
@[simp] theorem hostRead_inputs : (hostRead a s).inputs = s.inputs := rfl
@[simp] theorem hostRead_reads : (hostRead a s).reads = s.reads ++ [(a, hostReadByte a s)] := rfl
@[simp] theorem hostRead_draws : (hostRead a s).draws = s.draws := rfl

end

section
variable (s : State) (v : Byte)

@[simp] theorem clearStatus_op : (clearStatus v s).op = s.op := rfl
@[simp] theorem clearStatus_status : (clearStatus v s).status = Status.hostWritten v s.status := rfl
@[simp] theorem clearStatus_cmd0 : (clearStatus v s).cmd0 = s.cmd0 := rfl
@[simp] theorem clearStatus_cmd1 : (clearStatus v s).cmd1 = s.cmd1 := rfl
@[simp] theorem clearStatus_len : (clearStatus v s).len = s.len := rfl
@[simp] theorem clearStatus_variant : (clearStatus v s).variant = s.variant := rfl
@[simp] theorem clearStatus_arg : (clearStatus v s).arg = s.arg := rfl
@[simp] theorem clearStatus_res : (clearStatus v s).res = s.res := rfl
@[simp] theorem clearStatus_consumed : (clearStatus v s).consumed = s.consumed := rfl
@[simp] theorem clearStatus_ibufLen : (clearStatus v s).ibufLen = s.ibufLen := rfl
@[simp] theorem clearStatus_obufLen : (clearStatus v s).obufLen = s.obufLen := rfl
@[simp] theorem clearStatus_mem : (clearStatus v s).mem = s.mem := rfl
@[simp] theorem clearStatus_pend : (clearStatus v s).pend = s.pend := rfl
@[simp] theorem clearStatus_txlog : (clearStatus v s).txlog = s.txlog := rfl
@[simp] theorem clearStatus_inputs : (clearStatus v s).inputs = s.inputs := rfl
@[simp] theorem clearStatus_reads : (clearStatus v s).reads = s.reads := rfl
@[simp] theorem clearStatus_draws : (clearStatus v s).draws = s.draws := rfl

end

section
variable (s : State)

@[simp] theorem assertReset_op : (assertReset s).op = 0x00#8 := rfl
@[simp] theorem assertReset_status : (assertReset s).status = 0x00#8 := rfl
@[simp] theorem assertReset_cmd0 : (assertReset s).cmd0 = 0x00#8 := rfl
@[simp] theorem assertReset_cmd1 : (assertReset s).cmd1 = 0x00#8 := rfl
@[simp] theorem assertReset_len : (assertReset s).len = 0x00#8 := rfl
@[simp] theorem assertReset_variant : (assertReset s).variant = 0#1 := rfl
@[simp] theorem assertReset_arg : (assertReset s).arg = 0x0000#16 := rfl
@[simp] theorem assertReset_res : (assertReset s).res = 0x0000#16 := rfl
@[simp] theorem assertReset_consumed : (assertReset s).consumed = 0x0000#16 := rfl
@[simp] theorem assertReset_ibufLen : (assertReset s).ibufLen = 0#9 := rfl
@[simp] theorem assertReset_obufLen : (assertReset s).obufLen = 0#9 := rfl
@[simp] theorem assertReset_mem : (assertReset s).mem = [] := rfl
@[simp] theorem assertReset_pend : (assertReset s).pend = none := rfl
@[simp] theorem assertReset_txlog : (assertReset s).txlog = s.txlog := rfl
@[simp] theorem assertReset_inputs : (assertReset s).inputs = s.inputs := rfl
@[simp] theorem assertReset_reads : (assertReset s).reads = s.reads := rfl
@[simp] theorem assertReset_draws : (assertReset s).draws = s.draws := rfl

end

section
variable (s : State)

@[simp] theorem State.decodedHeader_op : (s.decodedHeader).op = s.op := rfl
@[simp] theorem State.decodedHeader_status : (s.decodedHeader).status = s.status := rfl
@[simp] theorem State.decodedHeader_cmd0 : (s.decodedHeader).cmd0 = s.ibufByte 1 := rfl
@[simp] theorem State.decodedHeader_cmd1 : (s.decodedHeader).cmd1 = s.ibufByte 2 := rfl
@[simp] theorem State.decodedHeader_len : (s.decodedHeader).len = s.ibufByte 0 := rfl
@[simp] theorem State.decodedHeader_variant : (s.decodedHeader).variant = s.variant := rfl
@[simp] theorem State.decodedHeader_arg : (s.decodedHeader).arg = s.arg := rfl
@[simp] theorem State.decodedHeader_res : (s.decodedHeader).res = s.res := rfl
@[simp] theorem State.decodedHeader_consumed : (s.decodedHeader).consumed = 3#16 := rfl
@[simp] theorem State.decodedHeader_ibufLen : (s.decodedHeader).ibufLen = s.ibufLen := rfl
@[simp] theorem State.decodedHeader_obufLen : (s.decodedHeader).obufLen = s.obufLen := rfl
@[simp] theorem State.decodedHeader_mem : (s.decodedHeader).mem = s.mem := rfl
@[simp] theorem State.decodedHeader_pend : (s.decodedHeader).pend = s.pend := rfl
@[simp] theorem State.decodedHeader_txlog : (s.decodedHeader).txlog = s.txlog := rfl
@[simp] theorem State.decodedHeader_inputs : (s.decodedHeader).inputs = s.inputs := rfl
@[simp] theorem State.decodedHeader_reads : (s.decodedHeader).reads = s.reads := rfl
@[simp] theorem State.decodedHeader_draws : (s.decodedHeader).draws = s.draws := rfl

end

section
variable (s : State)

@[simp] theorem State.decodedFrame_op : (s.decodedFrame).op = s.op := rfl
@[simp] theorem State.decodedFrame_status : (s.decodedFrame).status = s.status := rfl
@[simp] theorem State.decodedFrame_cmd0 : (s.decodedFrame).cmd0 = s.ibufByte 1 := rfl
@[simp] theorem State.decodedFrame_cmd1 : (s.decodedFrame).cmd1 = s.ibufByte 2 := rfl
@[simp] theorem State.decodedFrame_len : (s.decodedFrame).len = s.ibufByte 0 := rfl
@[simp] theorem State.decodedFrame_variant : (s.decodedFrame).variant = s.variant := rfl
@[simp] theorem State.decodedFrame_arg : (s.decodedFrame).arg = s.arg := rfl
@[simp] theorem State.decodedFrame_res : (s.decodedFrame).res = s.res := rfl
@[simp] theorem State.decodedFrame_consumed : (s.decodedFrame).consumed =
    BitVec.ofNat 16 (3 + (s.ibufByte 0).toNat) := rfl
@[simp] theorem State.decodedFrame_ibufLen : (s.decodedFrame).ibufLen = s.ibufLen := rfl
@[simp] theorem State.decodedFrame_obufLen : (s.decodedFrame).obufLen = s.obufLen := rfl
@[simp] theorem State.decodedFrame_mem : (s.decodedFrame).mem =
    s.mem.putBytes Config.payloadBase (s.ibufSlice 3 (s.ibufByte 0).toNat) := rfl
@[simp] theorem State.decodedFrame_pend : (s.decodedFrame).pend = s.pend := rfl
@[simp] theorem State.decodedFrame_txlog : (s.decodedFrame).txlog = s.txlog := rfl
@[simp] theorem State.decodedFrame_inputs : (s.decodedFrame).inputs = s.inputs := rfl
@[simp] theorem State.decodedFrame_reads : (s.decodedFrame).reads = s.reads := rfl
@[simp] theorem State.decodedFrame_draws : (s.decodedFrame).draws = s.draws := rfl

end

section
variable (s : State)

@[simp] theorem State.decodedEnvelope_op : (s.decodedEnvelope).op = s.op := rfl
@[simp] theorem State.decodedEnvelope_status : (s.decodedEnvelope).status = s.status := rfl
@[simp] theorem State.decodedEnvelope_cmd0 : (s.decodedEnvelope).cmd0 = s.ibufByte 2 := rfl
@[simp] theorem State.decodedEnvelope_cmd1 : (s.decodedEnvelope).cmd1 = s.ibufByte 3 := rfl
@[simp] theorem State.decodedEnvelope_len : (s.decodedEnvelope).len = s.ibufByte 1 := rfl
@[simp] theorem State.decodedEnvelope_variant : (s.decodedEnvelope).variant = 0#1 := rfl
@[simp] theorem State.decodedEnvelope_arg : (s.decodedEnvelope).arg = s.arg := rfl
@[simp] theorem State.decodedEnvelope_res : (s.decodedEnvelope).res = s.inputFcs.setWidth 16 := rfl
@[simp] theorem State.decodedEnvelope_consumed : (s.decodedEnvelope).consumed =
    BitVec.ofNat 16 (5 + (s.ibufByte 1).toNat) := rfl
@[simp] theorem State.decodedEnvelope_ibufLen : (s.decodedEnvelope).ibufLen = s.ibufLen := rfl
@[simp] theorem State.decodedEnvelope_obufLen : (s.decodedEnvelope).obufLen = s.obufLen := rfl
@[simp] theorem State.decodedEnvelope_mem : (s.decodedEnvelope).mem =
    s.mem.putBytes Config.payloadBase (s.ibufSlice 4 (s.ibufByte 1).toNat) := rfl
@[simp] theorem State.decodedEnvelope_pend : (s.decodedEnvelope).pend = s.pend := rfl
@[simp] theorem State.decodedEnvelope_txlog : (s.decodedEnvelope).txlog = s.txlog := rfl
@[simp] theorem State.decodedEnvelope_inputs : (s.decodedEnvelope).inputs = s.inputs := rfl
@[simp] theorem State.decodedEnvelope_reads : (s.decodedEnvelope).reads = s.reads := rfl
@[simp] theorem State.decodedEnvelope_draws : (s.decodedEnvelope).draws = s.draws := rfl

end

end Sys2Proof.Machine
end

