-- ==== Sys2Proof/Laws/Status.lean ====
section
/-! SUPPORT. What each update of STATUS does to each of its fields. -/

namespace Sys2Proof.Machine

theorem Status.committed_fields (v : Byte) : CommitStatus v (Status.committed v) := by
  unfold CommitStatus; revert v; decide

theorem Status.raised_fields (k : ErrorKind) (v : Byte) : RaiseStatus k.code v (Status.raised k v) := by
  unfold RaiseStatus; cases k <;> revert v <;> decide

/-- A hold sets BUSY and changes no other bit. -/
theorem Status.setBusy_bits (v : Byte) (k : Nat) : (Status.setBusy v).getLsbD k = (v.getLsbD k || decide (k = 5)) := by
  by_cases h : k < 8
  · obtain rfl | rfl | rfl | rfl | rfl | rfl | rfl | rfl :
      k = 0 ∨ k = 1 ∨ k = 2 ∨ k = 3 ∨ k = 4 ∨ k = 5 ∨ k = 6 ∨ k = 7 := by omega
    all_goals revert v; decide
  · rw [BitVec.getLsbD_of_ge _ _ (by omega), BitVec.getLsbD_of_ge _ _ (by omega)]; simp; omega

/-- A host write clears STICKY where its bit 6 is 1 and changes no other bit. -/
theorem Status.hostWritten_bits (v old : Byte) (k : Nat) :
    (Status.hostWritten v old).getLsbD k = (old.getLsbD k && !(decide (k = 6) && v.getLsbD 6)) := by
  unfold Status.hostWritten
  generalize v.getLsbD 6 = b
  by_cases h : k < 8
  · obtain rfl | rfl | rfl | rfl | rfl | rfl | rfl | rfl :
      k = 0 ∨ k = 1 ∨ k = 2 ∨ k = 3 ∨ k = 4 ∨ k = 5 ∨ k = 6 ∨ k = 7 := by omega
    all_goals revert b old; decide
  · rw [BitVec.getLsbD_of_ge _ _ (by omega), BitVec.getLsbD_of_ge _ _ (by omega)]; simp

/-- The start of an issue clears DONE and changes no other bit. -/
theorem Status.clearDone_bits (v : Byte) (k : Nat) :
    (Status.clearDone v).getLsbD k = (v.getLsbD k && !decide (k = 4)) := by
  by_cases h : k < 8
  · obtain rfl | rfl | rfl | rfl | rfl | rfl | rfl | rfl :
      k = 0 ∨ k = 1 ∨ k = 2 ∨ k = 3 ∨ k = 4 ∨ k = 5 ∨ k = 6 ∨ k = 7 := by omega
    all_goals revert v; decide
  · rw [BitVec.getLsbD_of_ge _ _ (by omega), BitVec.getLsbD_of_ge _ _ (by omega)]; simp

/-- The transport-accept step: ERR = 0, DONE = 1, BUSY = 0, STICKY and bit 7 unchanged. -/
theorem Status.accepted_fields (v : Byte) :
    Status.err (Status.accepted v) = 0#4 ∧ Status.done (Status.accepted v) = true ∧
      Status.busy (Status.accepted v) = false ∧ Status.sticky (Status.accepted v) = Status.sticky v ∧
      Status.reserved (Status.accepted v) = Status.reserved v := by
  revert v; decide

@[simp] theorem Status.busy_committed (v : Byte) : Status.busy (Status.committed v) = Status.busy v :=
  (Status.committed_fields v).2.2.1

@[simp] theorem Status.busy_raised (k : ErrorKind) (v : Byte) : Status.busy (Status.raised k v) = Status.busy v :=
  (Status.raised_fields k v).2.2.1

@[simp] theorem Status.busy_setBusy (v : Byte) : Status.busy (Status.setBusy v) = true := by
  rw [Status.busy, Status.setBusy_bits]; simp

@[simp] theorem Status.busy_clearDone (v : Byte) : Status.busy (Status.clearDone v) = Status.busy v := by
  rw [Status.busy, Status.clearDone_bits]; simp [Status.busy]

@[simp] theorem Status.busy_hostWritten (v old : Byte) : Status.busy (Status.hostWritten v old) = Status.busy old := by
  rw [Status.busy, Status.hostWritten_bits]; simp [Status.busy]

@[simp] theorem Status.done_committed (v : Byte) : Status.done (Status.committed v) = true :=
  (Status.committed_fields v).2.1

@[simp] theorem Status.done_raised (k : ErrorKind) (v : Byte) : Status.done (Status.raised k v) = true :=
  (Status.raised_fields k v).2.1

@[simp] theorem Status.done_setBusy (v : Byte) : Status.done (Status.setBusy v) = Status.done v := by
  rw [Status.done, Status.setBusy_bits]; simp [Status.done]

@[simp] theorem Status.done_clearDone (v : Byte) : Status.done (Status.clearDone v) = false := by
  rw [Status.done, Status.clearDone_bits]; simp

@[simp] theorem Status.done_hostWritten (v old : Byte) : Status.done (Status.hostWritten v old) = Status.done old := by
  rw [Status.done, Status.hostWritten_bits]; simp [Status.done]

@[simp] theorem Status.reserved_committed (v : Byte) : Status.reserved (Status.committed v) = Status.reserved v :=
  (Status.committed_fields v).2.2.2.2

@[simp] theorem Status.reserved_raised (k : ErrorKind) (v : Byte) :
    Status.reserved (Status.raised k v) = Status.reserved v := (Status.raised_fields k v).2.2.2.2

@[simp] theorem Status.reserved_setBusy (v : Byte) : Status.reserved (Status.setBusy v) = Status.reserved v := by
  rw [Status.reserved, Status.setBusy_bits]; simp [Status.reserved]

@[simp] theorem Status.reserved_clearDone (v : Byte) : Status.reserved (Status.clearDone v) = Status.reserved v := by
  rw [Status.reserved, Status.clearDone_bits]; simp [Status.reserved]

@[simp] theorem Status.reserved_hostWritten (v old : Byte) :
    Status.reserved (Status.hostWritten v old) = Status.reserved old := by
  rw [Status.reserved, Status.hostWritten_bits]; simp [Status.reserved]

@[simp] theorem Status.err_committed (v : Byte) : Status.err (Status.committed v) = 0#4 := (Status.committed_fields v).1

@[simp] theorem Status.err_raised (k : ErrorKind) (v : Byte) : Status.err (Status.raised k v) = k.code :=
  (Status.raised_fields k v).1

@[simp] theorem Status.err_setBusy (v : Byte) : Status.err (Status.setBusy v) = Status.err v := by revert v; decide

@[simp] theorem Status.err_clearDone (v : Byte) : Status.err (Status.clearDone v) = Status.err v := by revert v; decide

@[simp] theorem Status.err_hostWritten (v old : Byte) : Status.err (Status.hostWritten v old) = Status.err old := by
  unfold Status.hostWritten; split
  · revert old; decide
  · rfl

end Sys2Proof.Machine
end

