-- ==== Sys2Proof/Laws/Outcome.lean ====
section
/-! SUPPORT. What each shared operation can do, once: the three outcomes of an operation, the events of a step, and the
shapes an operation's answer can have. -/

namespace Sys2Proof.Machine

/-- `commit` always answers, and only STATUS changes after the staged writes. -/
theorem commit_eq (s t : State) : commit s = .next t ↔ t = { s with status := Status.committed s.status } := by
  unfold commit; constructor
  · intro h; injection h with h; exact h.symm
  · rintro rfl; rfl

/-- `raise` always answers, and only STATUS changes. -/
theorem raise_eq (k : ErrorKind) (s t : State) :
    raise k s = .next t ↔ t = { s with status := Status.raised k s.status } := by
  unfold raise; constructor
  · intro h; injection h with h; exact h.symm
  · rintro rfl; rfl

/-- `hold` always answers: PEND and BUSY change. -/
theorem hold_eq (f : Vector Byte 4) (s t : State) :
    hold f s = .next t ↔ t = { s with pend := some f, status := Status.setBusy s.status } := by
  unfold hold; constructor
  · intro h; injection h with h; exact h.symm
  · rintro rfl; rfl

theorem transportAccept_none (s : State) (h : s.pend = none) : transportAccept s = s := by simp [transportAccept, h]

theorem transportAccept_some (s : State) (f : Vector Byte 4) (h : s.pend = some f) :
    transportAccept s =
      { s.writeOut f.toList with
        txlog := s.txlog ++ [f.toList], res := f[1] ++ f[2], pend := none, status := Status.accepted s.status } := by
  simp [transportAccept, h]

/-- A step takes the next event of the total order. -/
theorem step_cons (s : State) (e : Event) (rest : List Event) (h : s.inputs = e :: rest) :
    step s = takeEvent e (s.advance rest) := by simp [step, h]

theorem step_nil (s : State) (h : s.inputs = []) : step s = .next s := by simp [step, h]

/-- A run of one step more, of any machine. -/
theorem run_succ (M : Host.Core) (n : Nat) (s t : M.State) (h : M.step s = .next t) : M.run (n + 1) s = M.run n t := by
  simp [Host.Core.run, h]

@[simp] theorem runSteps_zero (s : State) : runSteps 0 s = .next s := rfl

/-- A run of one step more. -/
theorem runSteps_succ (n : Nat) (s t : State) (h : step s = .next t) : runSteps (n + 1) s = runSteps n t :=
  run_succ Sys2Proof.core n s t h

/-- A host write while BUSY = 1, to any location but STATUS, changes nothing. -/
theorem hostWrite_busy (a : Addr) (v : Byte) (s : State) (hb : Status.busy s.status = true)
    (ha : locAt a ≠ some .status) : hostWrite a v s = .next s := by
  unfold hostWrite
  split
  · contradiction
  · simp [hb]
  · simp [hb]
  · rfl

/-- A host write while BUSY = 0 to a location that is neither OP nor STATUS stores there. -/
theorem hostWrite_store (a : Addr) (v : Byte) (s : State) (l : Loc) (hb : Status.busy s.status = false)
    (ha : locAt a = some l) (h1 : l ≠ .op) (h2 : l ≠ .status) : hostWrite a v s = .next (storeLoc l v s) := by
  cases l <;> simp_all [hostWrite]

/-- What the staged writes of a committing operation may change: never OP, ARG, IBUF_LEN, PEND, TXLOG or STATUS. -/
structure Staged (s u : State) : Prop where
  op : u.op = s.op
  status : u.status = s.status
  arg : u.arg = s.arg
  ibufLen : u.ibufLen = s.ibufLen
  pend : u.pend = s.pend
  txlog : u.txlog = s.txlog
  inputs : u.inputs = s.inputs
  reads : u.reads = s.reads
  draws : u.draws = s.draws
  len : u.len = s.len ∨ u.len.toNat ≤ 250
  consumed : u.consumed = s.consumed ∨ u.consumed.toNat ≤ 255
  store : (u.mem = s.mem ∧ u.obufLen = s.obufLen) ∨
    (∃ bs : List Byte, bs.length ≤ 250 ∧ u.mem = s.mem.putBytes Config.payloadBase bs ∧ u.obufLen = s.obufLen) ∨
    (∃ bs : List Byte, (s.ibufLen.toNat ≤ 256 → bs.length ≤ 260) ∧ u.mem = s.mem.putBytes Config.obufBase bs ∧
      u.obufLen = BitVec.ofNat 9 bs.length)

/-- The answers of an operation: it raises, it holds, or it commits what it staged. -/
inductive Shape (i : Instr) (s t : State) : Prop where
  | raised (k : ErrorKind) (h : t = { s with status := Status.raised k s.status })
  | held (hi : i = .linkSendAck)
      (h : t = { s with pend := some (ackFrame s.argByte), status := Status.setBusy s.status })
  | committed (u : State) (hu : Staged s u) (hi : i ≠ .linkSendAck)
      (h : t = { u with status := Status.committed u.status })

theorem lengthTooLong_iff (b : Byte) : lengthTooLong b = true ↔ 250 < b.toNat := by
  exact decide_eq_true_iff

@[simp] theorem ibufSlice_length (s : State) (i n : Nat) : (s.ibufSlice i n).length = n := by simp [State.ibufSlice]

@[simp] theorem payloadSlice_length (s : State) (n : Nat) : (s.payloadSlice n).length = n := by
  simp [State.payloadSlice]

@[simp] theorem frameBytes_length (s : State) : s.frameBytes.length = 3 + s.len.toNat := by
  simp [State.frameBytes, State.headerBytes]; omega

@[simp] theorem envelopeBytes_length (bs : List Byte) : (envelopeBytes bs).length = bs.length + 2 := by
  simp [envelopeBytes]

@[simp] theorem ctrlFrame_length (c : Byte) (p : List Byte) : (ctrlFrame c p).length = p.length + 4 := by
  simp [ctrlFrame]

theorem staged_register (s u : State) (h : u = { s with cmd0 := u.cmd0, cmd1 := u.cmd1, res := u.res }) :
    Staged s u := by
  rw [h]
  exact ⟨rfl, rfl, rfl, rfl, rfl, rfl, rfl, rfl, rfl, .inl rfl, .inl rfl, .inl ⟨rfl, rfl⟩⟩

theorem staged_output (s u : State) (bs : List Byte) (hb : s.ibufLen.toNat ≤ 256 → bs.length ≤ 260)
    (h : u = { s.writeOut bs with res := u.res }) : Staged s u := by
  rw [h]
  exact ⟨rfl, rfl, rfl, rfl, rfl, rfl, rfl, rfl, rfl, .inl rfl, .inl rfl, .inr (.inr ⟨bs, hb, rfl, rfl⟩)⟩

/-- Every answer of every operation has one of the three shapes. -/
theorem exec_shape (i : Instr) (s t : State) (h : exec i s = .next t) : Shape i s t := by
  cases i with
  | nop => exact .committed s (staged_register s s rfl) (by simp) ((commit_eq _ _).mp h)
  | cwFromU16 => exact .committed _ (staged_register s _ rfl) (by simp) ((commit_eq _ _).mp h)
  | cwFromBytes =>
    simp only [exec, execCwFromBytes] at h
    split at h
    · exact .raised _ ((raise_eq _ _ _).mp h)
    · refine .committed _ ?_ (by simp) ((commit_eq _ _).mp h)
      exact ⟨rfl, rfl, rfl, rfl, rfl, rfl, rfl, rfl, rfl, .inl rfl, .inr (by simp), .inl ⟨rfl, rfl⟩⟩
  | cwSubsystem => exact .committed _ (staged_register s _ rfl) (by simp) ((commit_eq _ _).mp h)
  | cwType => exact .committed _ (staged_register s _ rfl) (by simp) ((commit_eq _ _).mp h)
  | cwName => exact .committed _ (staged_register s _ rfl) (by simp) ((commit_eq _ _).mp h)
  | cwSerialize => exact .committed _ (staged_output s _ _ (by simp) rfl) (by simp) ((commit_eq _ _).mp h)
  | hdrFromBytes =>
    simp only [exec, execHdrFromBytes] at h
    split at h
    · exact .raised _ ((raise_eq _ _ _).mp h)
    · split at h
      · exact .raised _ ((raise_eq _ _ _).mp h)
      · rename_i hl
        rw [lengthTooLong_iff] at hl
        refine .committed _ ?_ (by simp) ((commit_eq _ _).mp h)
        exact ⟨rfl, rfl, rfl, rfl, rfl, rfl, rfl, rfl, rfl, .inr (Nat.le_of_not_lt hl),
          .inr (show (3#16).toNat ≤ 255 by simp), .inl ⟨rfl, rfl⟩⟩
  | hdrSerialize =>
    exact .committed _ (staged_output s _ _ (by simp [State.headerBytes]) rfl) (by simp) ((commit_eq _ _).mp h)
  | frameFromBytes =>
    simp only [exec, execFrameFromBytes] at h
    split at h
    · exact .raised _ ((raise_eq _ _ _).mp h)
    · split at h
      · exact .raised _ ((raise_eq _ _ _).mp h)
      · split at h
        · exact .raised _ ((raise_eq _ _ _).mp h)
        · rename_i hl _
          rw [lengthTooLong_iff] at hl
          refine .committed _ ?_ (by simp) ((commit_eq _ _).mp h)
          refine ⟨rfl, rfl, rfl, rfl, rfl, rfl, rfl, rfl, rfl, .inr (Nat.le_of_not_lt hl), .inr ?_,
            .inr (.inl ⟨_, ?_, rfl, rfl⟩)⟩
          · show (BitVec.ofNat 16 (3 + (s.ibufByte 0).toNat)).toNat ≤ 255
            rw [BitVec.toNat_ofNat]; omega
          · rw [ibufSlice_length]; omega
  | frameSerialize =>
    simp only [exec, execFrameSerialize] at h
    split at h
    · exact .raised _ ((raise_eq _ _ _).mp h)
    · rename_i hl
      rw [lengthTooLong_iff] at hl
      refine .committed _ (staged_output s _ _ (fun _ => ?_) rfl) (by simp) ((commit_eq _ _).mp h)
      rw [frameBytes_length]; omega
  | checksum => exact .committed _ (staged_register s _ rfl) (by simp) ((commit_eq _ _).mp h)
  | envFromBytes =>
    simp only [exec, execEnvFromBytes] at h
    split at h
    · exact .raised _ ((raise_eq _ _ _).mp h)
    split at h
    · exact .raised _ ((raise_eq _ _ _).mp h)
    split at h
    · exact .raised _ ((raise_eq _ _ _).mp h)
    split at h
    · exact .raised _ ((raise_eq _ _ _).mp h)
    split at h
    · exact .raised _ ((raise_eq _ _ _).mp h)
    rename_i hl
    rw [lengthTooLong_iff] at hl
    refine .committed _ ?_ (by simp) ((commit_eq _ _).mp h)
    refine ⟨rfl, rfl, rfl, rfl, rfl, rfl, rfl, rfl, rfl, .inr (Nat.le_of_not_lt hl), .inr ?_,
      .inr (.inl ⟨_, ?_, rfl, rfl⟩)⟩
    · show (BitVec.ofNat 16 (5 + (s.ibufByte 1).toNat)).toNat ≤ 255
      rw [BitVec.toNat_ofNat]; omega
    · rw [ibufSlice_length]; omega
  | envSerialize =>
    simp only [exec, execEnvSerialize] at h
    split at h
    · exact .raised _ ((raise_eq _ _ _).mp h)
    split at h
    · exact .raised _ ((raise_eq _ _ _).mp h)
    rename_i hl
    rw [lengthTooLong_iff] at hl
    refine .committed _ (staged_output s _ _ (fun _ => ?_) rfl) (by simp) ((commit_eq _ _).mp h)
    rw [envelopeBytes_length, frameBytes_length]; omega
  | envCommand =>
    simp only [exec, execEnvCommand] at h
    split at h
    · exact .raised _ ((raise_eq _ _ _).mp h)
    · exact .committed _ (staged_register s _ rfl) (by simp) ((commit_eq _ _).mp h)
  | linkMakeCtrl =>
    refine .committed _ (staged_output s _ (ctrlFrame s.argByte s.inputBytes) (fun hb => ?_) rfl) (by simp)
      ((commit_eq _ _).mp h)
    rw [ctrlFrame_length, State.inputBytes, ibufSlice_length]; omega
  | linkSendAck => exact .held rfl ((hold_eq _ _ _).mp h)
  | linkParseCtrl => exact .committed _ (staged_register s _ rfl) (by simp) ((commit_eq _ _).mp h)

/-- Every operation answers a next state. -/
theorem exec_answers (i : Instr) (s : State) : ∃ t, exec i s = .next t := by
  cases i <;> simp only [exec, execNop, execCwFromU16, execCwFromBytes, execCwSubsystem, execCwType, execCwName,
    execCwSerialize, execHdrFromBytes, execHdrSerialize, execFrameFromBytes, execFrameSerialize, execChecksum,
    execEnvFromBytes, execEnvSerialize, execEnvCommand, execLinkMakeCtrl, execLinkSendAck, execLinkParseCtrl, commit,
    raise, hold] <;> (repeat' split) <;> exact ⟨_, rfl⟩

end Sys2Proof.Machine
end

