-- ==== Sys2Proof/Laws/HostPort.lean ====
section
/-! SUPPORT. The address map and the host port: which addresses name which location, in numbers. -/

namespace Sys2Proof.Machine

theorem wellFormed_payload (i : Nat) : (Loc.payload i).wellFormed = true ↔ i < 250 := decide_eq_true_iff

theorem wellFormed_ibuf (i : Nat) : (Loc.ibuf i).wellFormed = true ↔ i < 256 := decide_eq_true_iff

theorem wellFormed_obuf (i : Nat) : (Loc.obuf i).wellFormed = true ↔ i < 260 := decide_eq_true_iff

theorem isBufferAddr_iff (a : Nat) : isBufferAddr a = true ↔
    (0x100 ≤ a ∧ a < 0x1FA) ∨ (0x200 ≤ a ∧ a < 0x300) ∨ (0x400 ≤ a ∧ a < 0x504) := by
  have h1 : decide (Config.payloadBase ≤ a ∧ a < Config.payloadBase + Config.payloadCap) = true ↔
    (0x100 ≤ a ∧ a < 0x1FA) := decide_eq_true_iff
  have h2 : decide (Config.ibufBase ≤ a ∧ a < Config.ibufBase + Config.ibufCap) = true ↔
    (0x200 ≤ a ∧ a < 0x300) := decide_eq_true_iff
  have h3 : decide (Config.obufBase ≤ a ∧ a < Config.obufBase + Config.obufCap) = true ↔
    (0x400 ≤ a ∧ a < 0x504) := decide_eq_true_iff
  rw [isBufferAddr, Bool.or_eq_true, Bool.or_eq_true, h1, h2, h3, or_assoc]

/-- The location at an address above the scalar registers. -/
theorem locAt_buffer (a : Addr) (h : 0x010 ≤ a.toNat) :
    locAt a =
      if 0x100 ≤ a.toNat ∧ a.toNat < 0x1FA then some (.payload (a.toNat - 0x100))
      else if 0x200 ≤ a.toNat ∧ a.toNat < 0x300 then some (.ibuf (a.toNat - 0x200))
      else if 0x400 ≤ a.toNat ∧ a.toNat < 0x504 then some (.obuf (a.toNat - 0x400))
      else none := by
  unfold locAt
  split <;> first | omega | rfl

theorem locAddr_payload (i : Nat) (h : i < 250) : (locAddr (.payload i)).toNat = 0x100 + i := by
  simp only [locAddr, Config.payloadBase, BitVec.toNat_ofNat]; omega

theorem locAddr_ibuf (i : Nat) (h : i < 256) : (locAddr (.ibuf i)).toNat = 0x200 + i := by
  simp only [locAddr, Config.ibufBase, BitVec.toNat_ofNat]; omega

theorem locAddr_obuf (i : Nat) (h : i < 260) : (locAddr (.obuf i)).toNat = 0x400 + i := by
  simp only [locAddr, Config.obufBase, BitVec.toNat_ofNat]; omega

theorem clampIbufLen_toNat (n : Nat) : (clampIbufLen n).toNat = min n 256 := by
  simp only [clampIbufLen, Config.ibufCap, BitVec.toNat_ofNat]; omega

/-- A read of a buffer byte that has been written. -/
theorem bufByte_of_find (s : State) (a : Nat) (v : Byte) (h : s.mem.find a = some v) : s.bufByte a = v := by
  simp [State.bufByte, h]

end Sys2Proof.Machine
end

