-- ==== Sys2Proof/Laws/Meaning.lean ====
section
/-! SUPPORT. Each meaning that checks its operands, check by check: which condition gives which outcome. -/

namespace Sys2Proof.Machine

theorem lengthTooLong_true (b : Byte) (h : 250 < b.toNat) : lengthTooLong b = true := (lengthTooLong_iff b).mpr h

theorem lengthTooLong_false (b : Byte) (h : b.toNat ≤ 250) : lengthTooLong b = false := by
  rw [← Bool.not_eq_true, lengthTooLong_iff]; omega

theorem execCwFromBytes_short (s : State) (h : s.ibufLen.toNat < 2) : execCwFromBytes s = raise .truncatedFrame s :=
  if_pos h

theorem execCwFromBytes_enough (s : State) (h : 2 ≤ s.ibufLen.toNat) :
    execCwFromBytes s = commit { s with cmd0 := s.ibufByte 0, cmd1 := s.ibufByte 1, consumed := 2#16 } :=
  if_neg (by omega)

theorem execHdrFromBytes_short (s : State) (h : s.ibufLen.toNat < 3) : execHdrFromBytes s = raise .truncatedFrame s :=
  if_pos h

theorem execHdrFromBytes_long (s : State) (h : 3 ≤ s.ibufLen.toNat) (hl : 250 < (s.ibufByte 0).toNat) :
    execHdrFromBytes s = raise .invalidLength s := by
  rw [execHdrFromBytes, if_neg (by omega), if_pos (lengthTooLong_true _ hl)]

theorem execHdrFromBytes_valid (s : State) (h : 3 ≤ s.ibufLen.toNat) (hl : (s.ibufByte 0).toNat ≤ 250) :
    execHdrFromBytes s = commit s.decodedHeader := by
  rw [execHdrFromBytes, if_neg (by omega), lengthTooLong_false _ hl, if_neg Bool.false_ne_true]

theorem execFrameFromBytes_short (s : State) (h : s.ibufLen.toNat < 3) :
    execFrameFromBytes s = raise .truncatedFrame s := if_pos h

theorem execFrameFromBytes_long (s : State) (h : 3 ≤ s.ibufLen.toNat) (hl : 250 < (s.ibufByte 0).toNat) :
    execFrameFromBytes s = raise .invalidLength s := by
  rw [execFrameFromBytes, if_neg (by omega), if_pos (lengthTooLong_true _ hl)]

theorem execFrameFromBytes_truncated (s : State) (h : 3 ≤ s.ibufLen.toNat) (hl : (s.ibufByte 0).toNat ≤ 250)
    (ht : s.ibufLen.toNat < 3 + (s.ibufByte 0).toNat) : execFrameFromBytes s = raise .truncatedFrame s := by
  rw [execFrameFromBytes, if_neg (by omega), lengthTooLong_false _ hl, if_neg Bool.false_ne_true, if_pos ht]

theorem execFrameFromBytes_valid (s : State) (hl : (s.ibufByte 0).toNat ≤ 250)
    (ht : 3 + (s.ibufByte 0).toNat ≤ s.ibufLen.toNat) : execFrameFromBytes s = commit s.decodedFrame := by
  rw [execFrameFromBytes, if_neg (by omega), lengthTooLong_false _ hl, if_neg Bool.false_ne_true, if_neg (by omega)]

theorem execFrameSerialize_long (s : State) (h : 250 < s.len.toNat) : execFrameSerialize s = raise .invalidLength s :=
  if_pos (lengthTooLong_true _ h)

theorem execFrameSerialize_valid (s : State) (h : s.len.toNat ≤ 250) :
    execFrameSerialize s = commit (s.writeOut s.frameBytes) := by
  rw [execFrameSerialize, lengthTooLong_false _ h, if_neg Bool.false_ne_true]

theorem execEnvFromBytes_noStart (s : State) (h : s.ibufLen.toNat < 1 ∨ s.ibufByte 0 ≠ 0xFE#8) :
    execEnvFromBytes s = raise .framingError s := if_pos h

theorem execEnvFromBytes_short (s : State) (h : s.ibufLen.toNat < 5 + (s.ibufByte 1).toNat) :
    execEnvFromBytes s = raise .framingError s := by
  by_cases h1 : s.ibufLen.toNat < 1 ∨ s.ibufByte 0 ≠ 0xFE#8
  · exact execEnvFromBytes_noStart s h1
  · exact (if_neg h1).trans ((congrArg _ (if_pos h)).trans (ite_self _))

theorem execEnvFromBytes_mismatch (s : State) (h0 : s.ibufByte 0 = 0xFE#8)
    (h : 5 + (s.ibufByte 1).toNat ≤ s.ibufLen.toNat) (hc : s.ibufByte (4 + (s.ibufByte 1).toNat) ≠ s.inputFcs) :
    execEnvFromBytes s = raise .checksumMismatch s := by
  have h1 : ¬ (s.ibufLen.toNat < 1 ∨ s.ibufByte 0 ≠ Config.sof) := fun hh => hh.elim (by omega) (fun hn => hn h0)
  rw [execEnvFromBytes, if_neg h1, if_neg (by omega), if_neg (by omega), if_pos hc]

theorem execEnvFromBytes_long (s : State) (h0 : s.ibufByte 0 = 0xFE#8)
    (h : 5 + (s.ibufByte 1).toNat ≤ s.ibufLen.toNat) (hc : s.ibufByte (4 + (s.ibufByte 1).toNat) = s.inputFcs)
    (hl : 250 < (s.ibufByte 1).toNat) : execEnvFromBytes s = raise .invalidLength s := by
  have h1 : ¬ (s.ibufLen.toNat < 1 ∨ s.ibufByte 0 ≠ Config.sof) := fun hh => hh.elim (by omega) (fun hn => hn h0)
  rw [execEnvFromBytes, if_neg h1, if_neg (by omega), if_neg (by omega), if_neg (not_not.mpr hc),
    if_pos (lengthTooLong_true _ hl)]

theorem execEnvFromBytes_valid (s : State) (h0 : s.ibufByte 0 = 0xFE#8)
    (h : 5 + (s.ibufByte 1).toNat ≤ s.ibufLen.toNat) (hc : s.ibufByte (4 + (s.ibufByte 1).toNat) = s.inputFcs)
    (hl : (s.ibufByte 1).toNat ≤ 250) : execEnvFromBytes s = commit s.decodedEnvelope := by
  have h1 : ¬ (s.ibufLen.toNat < 1 ∨ s.ibufByte 0 ≠ Config.sof) := fun hh => hh.elim (by omega) (fun hn => hn h0)
  rw [execEnvFromBytes, if_neg h1, if_neg (by omega), if_neg (by omega), if_neg (not_not.mpr hc),
    lengthTooLong_false _ hl, if_neg Bool.false_ne_true]

theorem execEnvSerialize_extended (s : State) (h : s.variant = 1#1) :
    execEnvSerialize s = raise .unsupportedVariant s := if_pos h

theorem execEnvSerialize_long (s : State) (h : s.variant = 0#1) (hl : 250 < s.len.toNat) :
    execEnvSerialize s = raise .invalidLength s := by
  rw [execEnvSerialize, h, if_neg (by decide), if_pos (lengthTooLong_true _ hl)]

theorem execEnvSerialize_valid (s : State) (h : s.variant = 0#1) (hl : s.len.toNat ≤ 250) :
    execEnvSerialize s = commit (s.writeOut (envelopeBytes s.frameBytes)) := by
  rw [execEnvSerialize, h, if_neg (by decide), lengthTooLong_false _ hl, if_neg Bool.false_ne_true]

theorem execEnvCommand_extended (s : State) (h : s.variant = 1#1) : execEnvCommand s = raise .unsupportedVariant s :=
  if_pos h

theorem execEnvCommand_standard (s : State) (h : s.variant = 0#1) :
    execEnvCommand s = commit { s with res := wordOf s.cmd1 s.cmd0 } := by
  rw [execEnvCommand, h, if_neg (by decide)]

end Sys2Proof.Machine
end

