-- ==== Sys2Proof/Laws/PerInstr.lean ====
section
/-! SUPPORT. The per-instruction family `FamField`: the `fam` field of each operation's code is its component family's
number (spec/30_encoding.md R63, R64). -/

namespace Sys2Proof.Laws.FamField

/-- The upper four bits of an operation's code are the number of the component family it belongs to (R63). -/
def Statement (i : Instr) : Prop := (encode i).extractLsb' 4 4 = i.family.code

theorem nop : Statement .nop := rfl

theorem cwFromU16 : Statement .cwFromU16 := rfl

theorem cwFromBytes : Statement .cwFromBytes := rfl

theorem cwSubsystem : Statement .cwSubsystem := rfl

theorem cwType : Statement .cwType := rfl

theorem cwName : Statement .cwName := rfl

theorem cwSerialize : Statement .cwSerialize := rfl

theorem hdrFromBytes : Statement .hdrFromBytes := rfl

theorem hdrSerialize : Statement .hdrSerialize := rfl

theorem frameFromBytes : Statement .frameFromBytes := rfl

theorem frameSerialize : Statement .frameSerialize := rfl

theorem checksum : Statement .checksum := rfl

theorem envFromBytes : Statement .envFromBytes := rfl

theorem envSerialize : Statement .envSerialize := rfl

theorem envCommand : Statement .envCommand := rfl

theorem linkMakeCtrl : Statement .linkMakeCtrl := rfl

theorem linkSendAck : Statement .linkSendAck := rfl

theorem linkParseCtrl : Statement .linkParseCtrl := rfl

end Sys2Proof.Laws.FamField
end

