-- ==== Sys2Proof/Tests/Slice0.lean ====
section
/-! SUPPORT. The model's own tests: every operation's code written out bit by bit from its `fam` and `fn` fields
(spec/30_encoding.md R63, R64), an ill-formed term for each check of WellFormed, small one-step tests whose expected
values are the vectors of spec/95_test_vectors.md, and a witness for the hypotheses of each obligation that has any. -/

namespace Sys2Proof.Tests

open Sys2Proof.Machine

/-! ### Decoding: `fam` in bits 7:4, `fn` in bits 3:0 -/

theorem test_decode_nop : decode 0b00000000#8 = .ok .nop := rfl

theorem test_decode_cwFromU16 : decode 0b00010000#8 = .ok .cwFromU16 := rfl

theorem test_decode_cwFromBytes : decode 0b00010001#8 = .ok .cwFromBytes := rfl

theorem test_decode_cwSubsystem : decode 0b00010010#8 = .ok .cwSubsystem := rfl

theorem test_decode_cwType : decode 0b00010011#8 = .ok .cwType := rfl

theorem test_decode_cwName : decode 0b00010100#8 = .ok .cwName := rfl

theorem test_decode_cwSerialize : decode 0b00010101#8 = .ok .cwSerialize := rfl

theorem test_decode_hdrFromBytes : decode 0b00100000#8 = .ok .hdrFromBytes := rfl

theorem test_decode_hdrSerialize : decode 0b00100001#8 = .ok .hdrSerialize := rfl

theorem test_decode_frameFromBytes : decode 0b00100010#8 = .ok .frameFromBytes := rfl

theorem test_decode_frameSerialize : decode 0b00100011#8 = .ok .frameSerialize := rfl

theorem test_decode_checksum : decode 0b00110000#8 = .ok .checksum := rfl

theorem test_decode_envFromBytes : decode 0b00110001#8 = .ok .envFromBytes := rfl

theorem test_decode_envSerialize : decode 0b00110010#8 = .ok .envSerialize := rfl

theorem test_decode_envCommand : decode 0b00110011#8 = .ok .envCommand := rfl

theorem test_decode_linkMakeCtrl : decode 0b01000000#8 = .ok .linkMakeCtrl := rfl

theorem test_decode_linkSendAck : decode 0b01000001#8 = .ok .linkSendAck := rfl

theorem test_decode_linkParseCtrl : decode 0b01000010#8 = .ok .linkParseCtrl := rfl

theorem test_decode_illegal : decode 0b00010110#8 = .error (.illegalOperation 0x16#8) := rfl

theorem test_decode_table_word : decodeTableWord 8 0x31 = some .envFromBytes := by decide

/-! ### WellFormed refuses an ill-formed term, one for each check -/

theorem test_illformed_payload_cell : (Loc.payload 250).wellFormed = false := by decide

theorem test_illformed_ibuf_cell : (Loc.ibuf 256).wellFormed = false := by decide

theorem test_illformed_obuf_cell : (Loc.obuf 260).wellFormed = false := by decide

theorem test_illformed_write_target : (HostLine.wr (.loc (.payload 250)) 0x00#8).wellFormed = false := by decide

theorem test_illformed_read_target : (HostLine.rd (.loc (.obuf 260))).wellFormed = false := by decide

/-- `op 0x<hh>` is only for a code with no mnemonic (R82). -/
theorem test_illformed_raw_code : (HostLine.opRaw 0x31#8).wellFormed = false := by decide

theorem test_illformed_ibuf_line : (HostLine.ibuf (List.replicate 257 0x00#8)).wellFormed = false := by
  decide +kernel

theorem test_illformed_payload_line : (HostLine.payload (List.replicate 251 0x00#8)).wellFormed = false := by
  decide +kernel

theorem test_illformed_rdobuf : (HostLine.rdobuf 261).wellFormed = false := by decide

/-! ### The encoding of host lines (spec/95_test_vectors.md section 4) -/

theorem test_assemble_encode : assemble [.wr16 0x0121#16, .op .cwFromU16, .wr (.loc .len) 0x00#8, .op .envSerialize] =
    [.write 0x006#11 0x21#8, .write 0x007#11 0x01#8, .write 0x000#11 0x10#8, .write 0x004#11 0x00#8,
     .write 0x000#11 0x32#8] := by decide

theorem test_assemble_load : assemble [.ibuf [0xFE#8, 0x02#8], .rd (.loc (.payload 1)), .rd16 .res, .clr] =
    [.write 0x200#11 0xFE#8, .write 0x201#11 0x02#8, .write 0x00D#11 0x00#8, .write 0x00C#11 0x02#8, .read 0x101#11,
     .read 0x008#11, .read 0x009#11, .write 0x001#11 0x40#8] := by decide

/-- P3: `wait` ends with the first poll that reads BUSY = 0. -/
theorem test_wait_agrees : lineAgrees (.wait 1) [0x20#8, 0x10#8] = true := by decide

/-! ### One step on a small state -/

/-- The reset state with these bytes in IBUF and IBUF_LEN their number. -/
def withInput (bs : List Byte) : State :=
  { State.reset with mem := Memory.putBytes [] 0x200 bs, ibufLen := BitVec.ofNat 9 bs.length }

/-- The reset state with a frame in the frame registers. -/
def withFrame (len cmd0 cmd1 : Byte) (bs : List Byte) : State :=
  { State.reset with len := len, cmd0 := cmd0, cmd1 := cmd1, mem := Memory.putBytes [] 0x100 bs }

/-- The state after one step, if it is a next state. -/
def stepped (s : State) : Option State :=
  match step s with
  | .next t => some t
  | .fault _ => none
  | .refused _ => none

/-- The state after the host writes v to OP. -/
def issued (v : Byte) (s : State) : Option State := stepped (s.withFetchWord 8 v.toNat)

/-- The state after one event. -/
def after (e : Event) (s : State) : Option State := stepped { s with inputs := [e] }

/-- The bytes written at a, a + 1, … a + n - 1. -/
def written (s : State) (a n : Nat) : List (Option Byte) := (List.range n).map (fun k => s.mem.find (a + k))

/-- The output, OBUF[0..OBUF_LEN). -/
def output (s : State) : List (Option Byte) := written s 0x400 s.obufLen.toNat

theorem test_nop_keeps_sticky :
    (issued 0x00#8 { State.reset with status := 0x53#8 }).map (fun t => (t.status, t.op)) = some (0x50#8, 0x00#8) := by
  decide

theorem test_illegal_code :
    (issued 0x16#8 { State.reset with status := 0x10#8 }).map (fun t => (t.status, t.op)) = some (0x56#8, 0x16#8) := by
  decide

theorem test_held_ignores_issue :
    (issued 0x00#8 { State.reset with status := 0x20#8, op := 0x41#8 }).map (fun t => (t.status, t.op)) =
      some (0x20#8, 0x41#8) := by
  decide

theorem test_cwFromU16 :
    (issued 0x10#8 { State.reset with arg := 0x0542#16 }).map (fun t => (t.cmd0, t.cmd1, t.status)) =
      some (0x42#8, 0x05#8, 0x10#8) := by
  decide

theorem test_cwFromBytes :
    (issued 0x11#8 (withInput [0xAA#8, 0xBB#8, 0xCC#8])).map (fun t => (t.cmd0, t.cmd1, t.consumed, t.status)) =
      some (0xAA#8, 0xBB#8, 2#16, 0x10#8) := by
  decide

theorem test_cwFromBytes_short : (issued 0x11#8 (withInput [0xAA#8])).map (fun t => (t.cmd0, t.status)) =
    some (0x00#8, 0x53#8) := by
  decide

theorem test_cwSubsystem : (issued 0x12#8 { State.reset with cmd0 := 0xE2#8 }).map (fun t => (t.res, t.status)) =
    some (0x0002#16, 0x10#8) := by
  decide

theorem test_cwSubsystem_fallback : (issued 0x12#8 { State.reset with cmd0 := 0x1A#8, res := 0xFFFF#16 }).map (·.res) =
    some 0x0000#16 := by
  decide

theorem test_cwType : (issued 0x13#8 { State.reset with cmd0 := 0x42#8 }).map (fun t => (t.res, t.status)) =
    some (0x0002#16, 0x10#8) := by
  decide

theorem test_cwType_reserved : (issued 0x13#8 { State.reset with cmd0 := 0xFF#8 }).map (·.res) = some 0x0007#16 := by
  decide

/-- The vector for 0xE2, whose masked code is 0x02, with `NAME_SET` holding that code. -/
theorem test_cwName_known (h : (Config.subsystemName 0x02#5).isSome = true) :
    (issued 0x14#8 { State.reset with cmd0 := 0xE2#8 }).map (·.res) = some 0x0102#16 := by
  have h' : nameKnown 0x02#5 = true := h
  show some (nameResult 0x02#5) = _
  rw [nameResult, h']
  decide

/-- The vector for 0x1A with `NAME_SET` not holding that code. -/
theorem test_cwName_unknown (h : (Config.subsystemName 0x1A#5).isSome = false) :
    (issued 0x14#8 { State.reset with cmd0 := 0x1A#8 }).map (·.res) = some 0x001A#16 := by
  have h' : nameKnown 0x1A#5 = false := h
  show some (nameResult 0x1A#5) = _
  rw [nameResult, h']
  decide

theorem test_cwSerialize : (issued 0x15#8 (withFrame 0x00#8 0x21#8 0x01#8 [])).map (fun t => (output t, t.status)) =
    some ([some 0x21#8, some 0x01#8], 0x10#8) := by
  decide

theorem test_hdrFromBytes :
    (issued 0x20#8 (withInput [0xFA#8, 0x21#8, 0x01#8])).map (fun t => (t.len, t.cmd0, t.cmd1, t.consumed, t.status)) =
      some (0xFA#8, 0x21#8, 0x01#8, 3#16, 0x10#8) := by
  decide

theorem test_hdrFromBytes_shortfall_first : (issued 0x20#8 (withInput [0xFB#8, 0x21#8])).map (·.status) = some 0x53#8 := by
  decide

theorem test_hdrSerialize : (issued 0x21#8 (withFrame 0xFB#8 0x21#8 0x01#8 [])).map (fun t => (output t, t.status)) =
    some ([some 0xFB#8, some 0x21#8, some 0x01#8], 0x10#8) := by
  decide

theorem test_frameFromBytes :
    (issued 0x22#8 (withInput [0x02#8, 0x61#8, 0x08#8, 0xAA#8, 0x55#8, 0x77#8])).map
      (fun t => ([t.len, t.cmd0, t.cmd1, t.status], written t 0x100 3, t.consumed)) =
      some ([0x02#8, 0x61#8, 0x08#8, 0x10#8], [some 0xAA#8, some 0x55#8, none], 5#16) := by
  decide

theorem test_frameFromBytes_truncated :
    (issued 0x22#8 (withInput [0x02#8, 0x61#8, 0x08#8, 0xAA#8])).map (fun t => (t.len, t.status)) =
      some (0x00#8, 0x53#8) := by
  decide

theorem test_frameSerialize :
    (issued 0x23#8 (withFrame 0x02#8 0x61#8 0x08#8 [0xAA#8, 0x55#8])).map (fun t => (output t, t.status)) =
      some ([some 0x02#8, some 0x61#8, some 0x08#8, some 0xAA#8, some 0x55#8], 0x10#8) := by
  decide

theorem test_frameSerialize_long : (issued 0x23#8 (withFrame 0xFB#8 0x61#8 0x08#8 [])).map (fun t => (t.obufLen, t.status)) =
    some (0#9, 0x55#8) := by
  decide

theorem test_checksum :
    (issued 0x30#8 (withInput [0x55#8, 0xAA#8, 0x0F#8])).map (fun t => (t.res, t.status)) = some (0x00F0#16, 0x10#8) := by
  decide

theorem test_checksum_empty : (issued 0x30#8 { State.reset with res := 0x1234#16 }).map (·.res) = some 0x0000#16 := by
  decide

theorem test_envFromBytes :
    (issued 0x31#8 (withInput [0xFE#8, 0x02#8, 0x61#8, 0x08#8, 0xAA#8, 0x55#8, 0x94#8])).map
      (fun t => ([t.len, t.cmd0, t.cmd1, t.status], written t 0x100 2, t.res, t.consumed)) =
      some ([0x02#8, 0x61#8, 0x08#8, 0x10#8], [some 0xAA#8, some 0x55#8], 0x0094#16, 7#16) := by
  decide

theorem test_envFromBytes_corrupt :
    (issued 0x31#8 (withInput [0xFE#8, 0x00#8, 0x21#8, 0x01#8, 0x21#8])).map (fun t => (t.cmd0, t.status)) =
      some (0x00#8, 0x52#8) := by
  decide

theorem test_envSerialize :
    (issued 0x32#8 (withFrame 0x02#8 0x61#8 0x08#8 [0xAA#8, 0x55#8])).map (fun t => (output t, t.status)) =
      some ([some 0xFE#8, some 0x02#8, some 0x61#8, some 0x08#8, some 0xAA#8, some 0x55#8, some 0x94#8], 0x10#8) := by
  decide

theorem test_envSerialize_variant_first :
    (issued 0x32#8 { withFrame 0xFB#8 0x61#8 0x08#8 [] with variant := 1#1 }).map (·.status) = some 0x54#8 := by
  decide

theorem test_envCommand : (issued 0x33#8 (withFrame 0x00#8 0x61#8 0x08#8 [])).map (fun t => (t.res, t.status)) =
    some (0x0861#16, 0x10#8) := by
  decide

theorem test_linkMakeCtrl :
    (issued 0x40#8 { withInput [0x01#8, 0x02#8] with arg := 0x0082#16 }).map (fun t => (output t, t.res, t.status)) =
      some ([some 0x82#8, some 0x01#8, some 0x02#8, some 0x46#8, some 0x49#8, some 0x7E#8], 0x4649#16, 0x10#8) := by
  decide +kernel

/-- ARG[15:8] is ignored and nothing is sent. -/
theorem test_linkMakeCtrl_no_payload :
    (issued 0x40#8 { State.reset with arg := 0x1234#16 }).map (fun t => (output t, t.txlog)) =
      some ([some 0x34#8, some 0x76#8, some 0xD7#8, some 0x7E#8], []) := by
  decide

theorem test_linkSendAck_holds :
    (issued 0x41#8 { State.reset with arg := 0x00FF#16, status := 0x50#8 }).map (fun t => (t.pend, t.status, t.txlog)) =
      some (some #v[0x87#8, 0xE1#8, 0x6F#8, 0x7E#8], 0x60#8, []) := by
  decide

theorem test_linkSendAck_accepted :
    (after .accept { State.reset with status := 0x20#8, pend := some (ackFrame 0x03#8) }).map
      (fun t => (t.txlog, output t, t.res, t.status)) =
      some ([[0x83#8, 0xA1#8, 0xEB#8, 0x7E#8]], [some 0x83#8, some 0xA1#8, some 0xEB#8, some 0x7E#8], 0xA1EB#16, 0x10#8) := by
  decide

theorem test_linkParseCtrl : (issued 0x42#8 { State.reset with arg := 0x001A#16 }).map (fun t => (t.res, t.status)) =
    some (0x0029#16, 0x10#8) := by
  decide

theorem test_linkParseCtrl_wraps : (issued 0x42#8 { State.reset with arg := 0x00FF#16 }).map (·.res) = some 0x000F#16 := by
  decide

/-! ### The host port (spec/95_test_vectors.md section 2.5) -/

theorem test_write_readOnly : (after (.host (.write 0x008#11 0x55#8)) State.reset).map (·.res) = some 0x0000#16 := by decide

theorem test_write_variant : (after (.host (.write 0x005#11 0xFF#8)) State.reset).map (hostReadByte 0x005#11) =
    some 0x01#8 := by
  decide

theorem test_ibufLen_clamps : (after (.host (.write 0x00C#11 0x05#8)) { State.reset with ibufLen := 256#9 }).map (·.ibufLen) =
    some 256#9 := by
  decide

theorem test_status_clear :
    (after (.host (.write 0x001#11 0x40#8)) { State.reset with status := 0x60#8 }).map (·.status) = some 0x20#8 := by
  decide

theorem test_reserved_reads_zero :
    (after (.host (.read 0x7FF#11)) State.reset).map (·.reads) = some [(0x7FF#11, 0x00#8)] := by
  decide

theorem test_reset_cancels :
    (after .reset { State.reset with status := 0x20#8, pend := some (ackFrame 0x00#8), txlog := [[0x01#8]] }).map
      (fun t => (t.pend, t.status, t.txlog)) = some (none, 0x00#8, [[0x01#8]]) := by
  decide

/-! ### Witnesses: for each obligation with hypotheses, states and operands that meet them, at the boundary values of
each clause -/

/-- The reset state with these events to come. -/
def facing (es : List Event) : State := { State.reset with inputs := es }

/-- A held LINK_SEND_ACK of sequence number 3, with these events to come. -/
def held (es : List Event) : State :=
  { facing es with op := 0x41#8, status := 0x20#8, arg := 0x0003#16, pend := some (ackFrame 0x03#8) }

/-- The host write of v to a. -/
def put (a : Addr) (v : Byte) : Event := .host (.write a v)

/-- The two ends of every reserved range of R46. -/
def reservedEnds : List Addr := [0x010#11, 0x0FF#11, 0x1FA#11, 0x1FF#11, 0x300#11, 0x3FF#11, 0x504#11, 0x7FF#11]

/-- The two ends of each buffer. -/
def bufferEnds : List Addr := [0x100#11, 0x1F9#11, 0x200#11, 0x2FF#11, 0x400#11, 0x503#11]

/-- The two ends of every range of illegal codes of R65. -/
def illegalEnds : List Byte :=
  [0x01#8, 0x0F#8, 0x16#8, 0x1F#8, 0x24#8, 0x2F#8, 0x34#8, 0x3F#8, 0x43#8, 0xFF#8]

theorem inv_of_idle (s : State) (h : s = facing s.inputs) : s.Inv := by
  rw [h]
  constructor <;> simp [facing, State.reset, Memory.wf, Status.err, Status.reserved, Status.busy, Status.done]

theorem inv_held (es : List Event) : (held es).Inv := by
  constructor <;>
    simp [held, facing, State.reset, Memory.wf, Status.err, Status.reserved, Status.busy, Status.done]

theorem witness_DecodeEncodeAgree : (∀ i : Instr, i.wellFormed = true) ∧ decode 0x42#8 = .ok .linkParseCtrl ∧
    (∀ v ∈ illegalEnds, decode v = .error (.illegalOperation v)) :=
  ⟨fun _ => rfl, rfl, by intro v hv; fin_cases hv <;> rfl⟩

theorem witness_AddressMapAgrees : (Loc.payload 249).wellFormed = true ∧ (Loc.ibuf 255).wellFormed = true ∧
    (Loc.obuf 259).wellFormed = true ∧ locAt 0x1F9#11 = some (.payload 249) ∧ locAt 0x2FF#11 = some (.ibuf 255) ∧
    locAt 0x503#11 = some (.obuf 259) ∧ locAt 0x00F#11 = some .obufLenHi ∧ ∀ a ∈ reservedEnds, locAt a = none := by
  decide +kernel

theorem witness_StepRunsDecodedOperation : (facing [put 0x000#11 0x41#8]).inputs = put 0x000#11 0x41#8 :: [] ∧
    (facing [put 0x000#11 0x41#8]).status.getLsbD 5 = false ∧ decode 0x41#8 = .ok .linkSendAck ∧
    Instr.linkSendAck.wellFormed = true := ⟨rfl, rfl, rfl, rfl⟩

theorem witness_IdleStateStays : State.reset.inputs = [] ∧ (facing [.accept]).inputs = [.accept] ∧
    (facing [.accept]).pend = none ∧
    (facing [.accept]).runOver = true := by decide

/-- No access is to come, so the run is over though other steps are to come; a held operation keeps it from being over. -/
theorem test_runOver : (facing [.reset]).runOver = true ∧ (held [.accept]).runOver = false ∧
    (facing [.accept, .host (.read 0x001#11)]).runOver = false := by decide

/-- The accept step of a held acknowledgement, and the start of one. -/
theorem witness_StepKeepsLegal : (held [.accept]).Inv ∧ (∃ t, step (held [.accept]) = .next t) ∧
    (facing [put 0x000#11 0x41#8]).Inv ∧ ∃ t, step (facing [put 0x000#11 0x41#8]) = .next t :=
  ⟨inv_held _, ⟨_, rfl⟩, inv_of_idle _ rfl, ⟨_, rfl⟩⟩

theorem witness_ResetStepCancelsAndKeepsTxlog : (held [.reset]).inputs = .reset :: [] ∧
    (held [.reset]).pend.isSome = true := by decide

theorem witness_BusyIgnoresHostWrites : (held [put 0x000#11 0x10#8]).status.getLsbD 5 = true ∧
    (held [put 0x000#11 0x10#8]).inputs = put 0x000#11 0x10#8 :: [] ∧ (0x000#11 : Addr) ≠ 0x001#11 ∧
    (held [put 0x001#11 0x40#8]).inputs = put 0x001#11 0x40#8 :: [] ∧
    (held [.host (.read 0x001#11)]).inputs = .host (.read 0x001#11) :: [] := by decide

theorem witness_HeldUntilAcceptOrReset : (held [put 0x001#11 0x40#8]).Inv ∧
    (held [put 0x001#11 0x40#8]).pend.isSome = true ∧ put 0x001#11 0x40#8 ≠ .accept ∧ put 0x001#11 0x40#8 ≠ .reset ∧
    ∃ t, step (held [put 0x001#11 0x40#8]) = .next t :=
  ⟨inv_held _, rfl, by decide, by decide, ⟨_, rfl⟩⟩

theorem witness_TxlogOnlyGrowsByAckFrames : (held [.accept]).Inv ∧
    ∃ t, runSteps 1 (held [.accept]) = .next t ∧ t.txlog = [[0x83#8, 0xA1#8, 0xEB#8, 0x7E#8]] :=
  ⟨inv_held _, ⟨_, rfl, by decide⟩⟩

theorem witness_OnlyAcceptAppendsToTxlog : (∃ t, step (held [.accept]) = .next t) ∧
    ∃ t, step (held [.reset]) = .next t := ⟨⟨_, rfl⟩, ⟨_, rfl⟩⟩

theorem witness_HostReadsHaveNoSideEffects :
    (facing [.host (.read 0x001#11)]).inputs = .host (.read 0x001#11) :: [] := rfl

/-- A byte written at each end of each buffer, and the ends of the reserved ranges. -/
theorem witness_HostReadValues : (∀ a ∈ bufferEnds, Memory.find (Memory.put [] a.toNat 0x5A#8) a.toNat = some 0x5A#8) ∧
    ∀ a ∈ reservedEnds, (0x010 ≤ a.toNat ∧ a.toNat ≤ 0x0FF) ∨ (0x1FA ≤ a.toNat ∧ a.toNat ≤ 0x1FF) ∨
      (0x300 ≤ a.toNat ∧ a.toNat ≤ 0x3FF) ∨ 0x504 ≤ a.toNat := by simp [bufferEnds, reservedEnds, Memory.put, Memory.find]

theorem witness_ReservedAddressesAreInert : ∀ a ∈ reservedEnds,
    ((0x010 ≤ a.toNat ∧ a.toNat ≤ 0x0FF) ∨ (0x1FA ≤ a.toNat ∧ a.toNat ≤ 0x1FF) ∨
      (0x300 ≤ a.toNat ∧ a.toNat ≤ 0x3FF) ∨ 0x504 ≤ a.toNat) ∧
    (facing [.host (.read a)]).inputs = .host (.read a) :: [] ∧
    (facing [put a 0xFF#8]).inputs = put a 0xFF#8 :: [] := by simp [reservedEnds, facing]

theorem idleBefore_facing (e : Event) (rest : List Event) : IdleBefore e rest (facing (e :: rest)) :=
  ⟨rfl, (by decide : Status.busy 0x00#8 = false)⟩

theorem witness_ReadOnlyAndReservedBitsIgnored :
    (∀ a ∈ [0x008#11, 0x00B#11, 0x00E#11, 0x00F#11, 0x400#11, 0x503#11, 0x005#11, 0x00D#11],
      IdleBefore (put a 0xFF#8) [] (facing [put a 0xFF#8])) ∧
    ∀ a ∈ [(0x008#11 : Addr), 0x00B#11, 0x00E#11, 0x00F#11, 0x400#11, 0x503#11],
      (0x008 ≤ a.toNat ∧ a.toNat ≤ 0x00B) ∨ a.toNat = 0x00E ∨ a.toNat = 0x00F ∨
        (0x400 ≤ a.toNat ∧ a.toNat ≤ 0x503) :=
  ⟨fun _ _ => idleBefore_facing _ _, by simp⟩

theorem witness_HostWritesStore :
    (∀ a ∈ [0x002#11, 0x003#11, 0x004#11, 0x006#11, 0x007#11, 0x100#11, 0x1F9#11, 0x200#11, 0x2FF#11],
      IdleBefore (put a 0x7E#8) [] (facing [put a 0x7E#8])) ∧
    ∀ a ∈ [(0x100#11 : Addr), 0x1F9#11, 0x200#11, 0x2FF#11],
      (0x100 ≤ a.toNat ∧ a.toNat ≤ 0x1F9) ∨ (0x200 ≤ a.toNat ∧ a.toNat ≤ 0x2FF) :=
  ⟨fun _ _ => idleBefore_facing _ _, by simp⟩

theorem witness_IbufLenWritesClamp : IdleBefore (put 0x00C#11 0xFF#8) [] (facing [put 0x00C#11 0xFF#8]) ∧
    IdleBefore (put 0x00D#11 0x01#8) [] (facing [put 0x00D#11 0x01#8]) :=
  ⟨idleBefore_facing _ _, idleBefore_facing _ _⟩

theorem witness_HighByteFirstSetsIbufLen : ∀ n ∈ [0, 255, 256, 257, 511], n < 512 ∧
    IdleBefore (put 0x00D#11 (BitVec.ofNat 8 (n / 256))) [put 0x00C#11 (BitVec.ofNat 8 (n % 256))]
      (facing [put 0x00D#11 (BitVec.ofNat 8 (n / 256)), put 0x00C#11 (BitVec.ofNat 8 (n % 256))]) :=
  fun n hn => ⟨by fin_cases hn <;> decide, idleBefore_facing _ _⟩

theorem witness_StatusWriteOnlyClearsSticky :
    (held [put 0x001#11 0xFF#8]).inputs = put 0x001#11 0xFF#8 :: [] ∧
    (facing [put 0x001#11 0xBF#8]).inputs = put 0x001#11 0xBF#8 :: [] := by decide

theorem witness_UnwrittenBytesAreDraws :
    (∀ a ∈ bufferEnds, ((0x100 ≤ a.toNat ∧ a.toNat ≤ 0x1F9) ∨ (0x200 ≤ a.toNat ∧ a.toNat ≤ 0x2FF) ∨
      (0x400 ≤ a.toNat ∧ a.toNat ≤ 0x503)) ∧ State.reset.mem.find a.toNat = none) ∧
    State.reset.mem.find (0x200 + 255) = none ∧ State.reset.mem.find (0x100 + 249) = none ∧
    (withInput [0xFE#8]).mem.find (0x200 + 0) = some 0xFE#8 ∧
    (withFrame 0x01#8 0x00#8 0x00#8 [0xAA#8]).mem.find (0x100 + 0) = some 0xAA#8 ∧
    (facing [.accept]).inputs ≠ [] ∧ ∃ t, step (facing [.accept]) = .next t :=
  ⟨by simp [bufferEnds, State.reset], rfl, rfl, rfl, rfl, by decide, ⟨_, rfl⟩⟩

/-- The empty line and the longest one. -/
theorem witness_IbufLineLoadsBuffer : ∀ n ∈ [0, 256], (HostLine.ibuf (List.replicate n 0xFF#8)).wellFormed = true ∧
    (facing ((assemble [.ibuf (List.replicate n 0xFF#8)]).map Event.host)).status.getLsbD 5 = false ∧
    (facing ((assemble [.ibuf (List.replicate n 0xFF#8)]).map Event.host)).inputs =
      (assemble [.ibuf (List.replicate n 0xFF#8)]).map Event.host ++ [] := by
  intro n hn
  refine ⟨decide_eq_true (List.length_replicate.trans_le ?_), (by decide : (0x00#8).getLsbD 5 = false),
    (List.append_nil _).symm⟩
  fin_cases hn <;> decide

/-- A state that holds an output of n bytes, n ≤ 260, and faces the line that reads it. -/
def withOutput (n : Nat) : State :=
  { facing ((assemble [.rdobuf n]).map Event.host) with
    mem := Memory.putBytes [] 0x400 (List.replicate n 0x7E#8), obufLen := BitVec.ofNat 9 n }

theorem inv_withOutput (n : Nat) (h : n ≤ 260) : (withOutput n).Inv := by
  have hn : (BitVec.ofNat 9 n).toNat = n := by rw [BitVec.toNat_ofNat]; omega
  constructor
  case mem_wf =>
    refine Memory.wf_putBytes [] 0x400 _ ⟨.nil, nofun⟩ fun k hk => ?_
    rw [isBufferAddr_iff]
    rw [List.length_replicate] at hk
    omega
  case obufLen_le => exact hn.trans_le h
  case output_written =>
    intro i hi
    have hi' : i < (List.replicate n 0x7E#8).length := by rw [List.length_replicate]; exact hn ▸ hi
    exact (congrArg Option.isSome (Memory.find_putBytes_at [] 0x400 _ i hi')).trans rfl
  all_goals simp [withOutput, facing, State.reset, Status.err, Status.reserved, Status.busy, Status.done]

/-- The shortest output and the longest one. -/
theorem witness_RdobufReturnsOutput : ∀ n ∈ [0, 260], (withOutput n).Inv ∧ n = (withOutput n).obufLen.toNat ∧
    (withOutput n).inputs = (assemble [.rdobuf n]).map Event.host ++ [] := by
  intro n hn
  refine ⟨inv_withOutput n ?_, ?_, (List.append_nil _).symm⟩ <;> fin_cases hn <;> decide

theorem witness_NopCommits : IdleBefore (put 0x000#11 0x00#8) [] (facing [put 0x000#11 0x00#8]) := idleBefore_facing _ _

theorem witness_IllegalCodesRaise :
    (∀ v ∈ illegalEnds, (0x01 ≤ v.toNat ∧ v.toNat ≤ 0x0F) ∨ (0x16 ≤ v.toNat ∧ v.toNat ≤ 0x1F) ∨
      (0x24 ≤ v.toNat ∧ v.toNat ≤ 0x2F) ∨ (0x34 ≤ v.toNat ∧ v.toNat ≤ 0x3F) ∨ 0x43 ≤ v.toNat) ∧
    ∀ v ∈ illegalEnds, IdleBefore (put 0x000#11 v) [] (facing [put 0x000#11 v]) :=
  ⟨by decide, fun _ _ => idleBefore_facing _ _⟩

/-- A decode of an empty input raises. -/
theorem witness_RaisesArePrecise : Instr.envFromBytes ≠ .linkSendAck ∧
    ∃ t, exec .envFromBytes State.reset = .next t ∧ t.status.extractLsb' 0 4 ≠ 0#4 :=
  ⟨by decide, ⟨_, execEnvFromBytes_noStart _ (.inl (by decide)), by decide⟩⟩

theorem witness_OperationsKeepHostState : ∃ t, exec .linkMakeCtrl (withInput [0x01#8]) = .next t := ⟨_, rfl⟩

theorem witness_OutcomeIgnoresStatus : (∃ t, exec .linkSendAck State.reset = .next t) ∧
    Instr.nop ≠ .linkSendAck ∧ ∃ t, exec .nop State.reset = .next t := ⟨⟨_, rfl⟩, by decide, ⟨_, rfl⟩⟩

/-- A header of the largest length. -/
theorem witness_DecodersKeepLengthInRange : ∃ t, exec .hdrFromBytes (withInput [0xFA#8, 0x21#8, 0x01#8]) = .next t ∧
    t.len = 0xFA#8 := ⟨_, execHdrFromBytes_valid _ (by decide) (by decide), by decide⟩

/-- Two states that differ in OBUF[0], which no operation reads. -/
theorem witness_OperationsReadOnlyTheirInput :
    let s := withInput [0x01#8]
    let r := { s with mem := s.mem.put 0x400 0xEE#8 }
    r = { s with mem := r.mem } ∧ (∀ k, k < s.ibufLen.toNat → r.ibufByte k = s.ibufByte k) ∧
      (∀ k, k < s.len.toNat → r.payloadByte k = s.payloadByte k) ∧ (∃ t, exec .checksum s = .next t) ∧
      ∃ u, exec .checksum r = .next u := by
  refine ⟨rfl, fun k hk => ?_, fun k hk => absurd hk (Nat.not_lt_zero k), ⟨_, rfl⟩, ⟨_, rfl⟩⟩
  obtain rfl : k = 0 := Nat.lt_one_iff.mp hk
  rfl

theorem witness_CwFromBytesResult : (withInput [0x42#8]).ibufLen.toNat < 2 ∧
    2 ≤ (withInput [0x42#8, 0x05#8]).ibufLen.toNat ∧
    ({ State.reset with arg := 0x0542#16 } : State).arg.toNat =
      ((withInput [0x42#8, 0x05#8]).ibufByte 1).toNat * 256 + ((withInput [0x42#8, 0x05#8]).ibufByte 0).toNat ∧
    ∃ u, exec .cwFromU16 { State.reset with arg := 0x0542#16 } = .next u := ⟨by decide, by decide, by decide, ⟨_, rfl⟩⟩

theorem witness_CwSerializeResult : ∃ t, exec .cwFromU16 { State.reset with arg := 0x0542#16 } = .next t := ⟨_, rfl⟩

/-- 0xE2 and 0x02 share bits 4:0, 0xE2 and 0xFF share bits 7:5. -/
theorem witness_ClassificationDependsOnCmd0Alone : (0xE2#8).toNat % 32 = (0x02#8).toNat % 32 ∧
    (0xE2#8).toNat / 32 = (0xFF#8).toNat / 32 ∧ (∃ t, exec .cwSubsystem { State.reset with cmd0 := 0xE2#8 } = .next t) ∧
    (∃ t, exec .cwType { State.reset with cmd0 := 0xE2#8 } = .next t) ∧
    ∃ t, exec .cwName { State.reset with cmd0 := 0xE2#8 } = .next t := ⟨rfl, rfl, ⟨_, rfl⟩, ⟨_, rfl⟩, ⟨_, rfl⟩⟩

theorem witness_HdrFromBytesResult : (withInput [0xFA#8, 0x21#8]).ibufLen.toNat < 3 ∧
    (3 ≤ (withInput [0xFB#8, 0x21#8, 0x01#8]).ibufLen.toNat ∧
      250 < ((withInput [0xFB#8, 0x21#8, 0x01#8]).ibufByte 0).toNat) ∧
    3 ≤ (withInput [0xFA#8, 0x21#8, 0x01#8]).ibufLen.toNat ∧
      ((withInput [0xFA#8, 0x21#8, 0x01#8]).ibufByte 0).toNat ≤ 250 := by decide

/-- An input of n bytes of which only the first three have been written. -/
def header (b0 : Byte) (n : Nat) : State := { withInput [b0, 0x21#8, 0x01#8] with ibufLen := BitVec.ofNat 9 n }

/-- One byte short and exactly long enough, for the largest and the smallest length. -/
theorem witness_FrameFromBytesResult : (header 0x00#8 2).ibufLen.toNat < 3 ∧
    (3 ≤ (header 0xFB#8 3).ibufLen.toNat ∧ 250 < ((header 0xFB#8 3).ibufByte 0).toNat) ∧
    (3 ≤ (header 0xFA#8 252).ibufLen.toNat ∧ ((header 0xFA#8 252).ibufByte 0).toNat ≤ 250 ∧
      (header 0xFA#8 252).ibufLen.toNat < 3 + ((header 0xFA#8 252).ibufByte 0).toNat) ∧
    (3 + ((header 0xFA#8 253).ibufByte 0).toNat ≤ (header 0xFA#8 253).ibufLen.toNat ∧
      ((header 0xFA#8 253).ibufByte 0).toNat ≤ 250) ∧
    3 + ((header 0x00#8 3).ibufByte 0).toNat ≤ (header 0x00#8 3).ibufLen.toNat ∧
      ((header 0x00#8 3).ibufByte 0).toNat ≤ 250 := by decide

theorem witness_FrameSerializeResult : 250 < (withFrame 0xFB#8 0x00#8 0x00#8 []).len.toNat ∧
    (withFrame 0xFA#8 0x00#8 0x00#8 []).len.toNat ≤ 250 := by decide

/-- A frame of n bytes of payload in the frame registers. -/
def fullFrame (n : Nat) : State := withFrame (BitVec.ofNat 8 n) 0x61#8 0x08#8 (List.replicate n 0xAA#8)

/-- The state in which the bytes bs stand at IBUF[0..). -/
def asInput (bs : List Byte) : State := withInput bs

theorem asInput_find (bs m : List Byte) (mem : Memory) (k : Nat) (hm : m = bs) (h : k < bs.length) :
    (asInput bs).mem.find (0x200 + k) = (mem.putBytes 0x400 m).find (0x400 + k) := by
  subst hm
  exact (Memory.find_putBytes_at [] 0x200 _ k h).trans (Memory.find_putBytes_at mem 0x400 _ k h).symm

/-- The empty payload and the longest one, sent and received; and a received frame of the longest payload. -/
theorem witness_StandardFrameRoundTrip : (∀ n ∈ [0, 250], (fullFrame n).len.toNat = n ∧
      (asInput (fullFrame n).frameBytes).ibufLen.toNat = 3 + n ∧
      ∃ t, exec .frameSerialize (fullFrame n) = .next t ∧
        ∀ k, k < 3 + n → (asInput (fullFrame n).frameBytes).mem.find (0x200 + k) = t.mem.find (0x400 + k)) ∧
    ∃ t, exec .frameFromBytes (header 0xFA#8 253) = .next t ∧ t.status.extractLsb' 0 4 = 0#4 := by
  refine ⟨fun n hn => ?_, ⟨_, execFrameFromBytes_valid _ (by decide) (by decide), by decide⟩⟩
  have hn' : n ≤ 250 := by fin_cases hn <;> decide
  have hl : (fullFrame n).len.toNat = n := by
    show (BitVec.ofNat 8 n).toNat = n
    rw [BitVec.toNat_ofNat]; omega
  have hb : (fullFrame n).frameBytes.length = 3 + n := by rw [frameBytes_length, hl]
  refine ⟨hl, ?_, _, execFrameSerialize_valid _ (hl.trans_le hn'), fun k hk => asInput_find _ _ _ k rfl (hb ▸ hk)⟩
  show (BitVec.ofNat 9 (fullFrame n).frameBytes.length).toNat = 3 + n
  rw [hb, BitVec.toNat_ofNat]; omega

theorem witness_XorFoldLaws : [0x00#8, 0x21#8, 0x01#8].Perm [0x21#8, 0x01#8, 0x00#8] ∧ (0x01#8 : Byte) ≠ 0x03#8 := by
  decide

/-- The first four checks fail in turn. -/
theorem witness_EnvFromBytesResult_frame :
    State.reset.ibufLen.toNat < 1 ∧ (withInput [0xFD#8, 0x00#8]).ibufByte 0 ≠ 0xFE#8 ∧
    ((withInput [0xFE#8]).ibufByte 0 = 0xFE#8 ∧ (withInput [0xFE#8]).ibufLen.toNat < 2) ∧
    ((withInput [0xFE#8, 0x00#8, 0x21#8, 0x01#8]).ibufByte 0 = 0xFE#8 ∧
      (withInput [0xFE#8, 0x00#8, 0x21#8, 0x01#8]).ibufLen.toNat = 4 ∧
      ((withInput [0xFE#8, 0x00#8, 0x21#8, 0x01#8]).ibufByte 1).toNat = 0) ∧
    ((withInput [0xFE#8, 0x00#8, 0x21#8, 0x01#8, 0x21#8]).ibufByte 4 ≠
      xorFold (inputSpan (withInput [0xFE#8, 0x00#8, 0x21#8, 0x01#8, 0x21#8]) 1 3)) := by decide

theorem input_byte (bs : List Byte) (k : Nat) (v : Byte) (h : bs[k]? = some v) : (withInput bs).ibufByte k = v := by
  obtain ⟨hk, hv⟩ := List.getElem?_eq_some_iff.mp h
  exact hv ▸ bufByte_of_find _ _ _ (Memory.find_putBytes_at [] 0x200 bs k hk)

theorem input_span (bs : List Byte) (i n : Nat) (h : i + n ≤ bs.length) :
    inputSpan (withInput bs) i n = (bs.drop i).take n := by
  apply List.ext_getElem
  · simp [inputSpan]; omega
  · intro k hk _
    have hk' : i + k < bs.length := by simp [inputSpan] at hk; omega
    simp [inputSpan, input_byte bs (i + k) bs[i + k] (List.getElem?_eq_getElem hk')]

/-- The envelope of n zero payload bytes, whose check byte is right. -/
def zeroEnvelope (n : Nat) : List Byte :=
  [0xFE#8, BitVec.ofNat 8 n, 0x00#8, 0x00#8] ++ List.replicate n 0x00#8 ++ [BitVec.ofNat 8 n]

/-- N = 251 passes the checks before the length check and fails that one; N = 250 passes all five. -/
theorem witness_EnvFromBytesResult_length : ∀ n ∈ [250, 251],
    (withInput (zeroEnvelope n)).ibufLen.toNat = 5 + n ∧ (withInput (zeroEnvelope n)).ibufByte 0 = 0xFE#8 ∧
    ((withInput (zeroEnvelope n)).ibufByte 1).toNat = n ∧
    (withInput (zeroEnvelope n)).ibufByte (4 + n) = xorFold (inputSpan (withInput (zeroEnvelope n)) 1 (3 + n)) := by
  intro n hn
  have hl : (zeroEnvelope n).length = 5 + n := by simp [zeroEnvelope]; omega
  have hf : (zeroEnvelope n)[4 + n]? = some (xorFold (((zeroEnvelope n).drop 1).take (3 + n))) := by
    fin_cases hn <;> decide +kernel
  rw [input_byte _ 0 0xFE#8 rfl, input_byte _ 1 (BitVec.ofNat 8 n) rfl, input_byte _ _ _ hf,
    input_span _ _ _ (by omega)]
  refine ⟨?_, rfl, ?_, rfl⟩
  · show (BitVec.ofNat 9 (zeroEnvelope n).length).toNat = 5 + n
    rw [hl]
    fin_cases hn <;> rfl
  · fin_cases hn <;> rfl

theorem witness_EnvSerializeResult : ({ fullFrame 0 with variant := 1#1 } : State).variant = 1#1 ∧
    ((withFrame 0xFB#8 0x00#8 0x00#8 []).variant = 0#1 ∧ 250 < (withFrame 0xFB#8 0x00#8 0x00#8 []).len.toNat) ∧
    (withFrame 0xFA#8 0x00#8 0x00#8 []).variant = 0#1 ∧ (withFrame 0xFA#8 0x00#8 0x00#8 []).len.toNat ≤ 250 := by decide

theorem witness_EnvCommandResult : ({ State.reset with variant := 1#1 } : State).variant = 1#1 ∧
    (withFrame 0x00#8 0x21#8 0x01#8 []).variant = 0#1 ∧ ({ State.reset with arg := 0x0121#16 } : State).arg = 0x0121#16 ∧
    (∃ t, exec .envCommand (withFrame 0x00#8 0x21#8 0x01#8 []) = .next t ∧ t.res = 0x0121#16) ∧
    ∃ u, exec .cwFromU16 { State.reset with arg := 0x0121#16 } = .next u :=
  ⟨rfl, rfl, rfl, ⟨_, execEnvCommand_standard _ rfl, by decide⟩, ⟨_, rfl⟩⟩

/-- The state after an envelope is decoded. -/
theorem decoded_envelope : ∃ t, exec .envFromBytes (withInput [0xFE#8, 0x00#8, 0x21#8, 0x01#8, 0x20#8]) = .next t ∧
    t.status.extractLsb' 0 4 = 0#4 :=
  ⟨_, execEnvFromBytes_valid _ (by decide) (by decide) (by decide) (by decide), by decide⟩

/-- The empty payload and the longest one, sent and received; and a received envelope. -/
theorem witness_EnvelopeRoundTrip : (∀ n ∈ [0, 250], (fullFrame n).len.toNat = n ∧ (fullFrame n).variant = 0#1 ∧
      (asInput (envelopeBytes (fullFrame n).frameBytes)).ibufLen.toNat = 5 + n ∧
      ∃ t, exec .envSerialize (fullFrame n) = .next t ∧ ∀ k, k < 5 + n →
        (asInput (envelopeBytes (fullFrame n).frameBytes)).mem.find (0x200 + k) = t.mem.find (0x400 + k)) ∧
    ∃ t, exec .envFromBytes (withInput [0xFE#8, 0x00#8, 0x21#8, 0x01#8, 0x20#8]) = .next t ∧
      t.status.extractLsb' 0 4 = 0#4 := by
  refine ⟨fun n hn => ?_, decoded_envelope⟩
  have hn' : n ≤ 250 := by fin_cases hn <;> decide
  have hl : (fullFrame n).len.toNat = n := by
    show (BitVec.ofNat 8 n).toNat = n
    rw [BitVec.toNat_ofNat]; omega
  have hb : (envelopeBytes (fullFrame n).frameBytes).length = 5 + n := by
    rw [envelopeBytes_length, frameBytes_length, hl]; omega
  refine ⟨hl, rfl, ?_, _, execEnvSerialize_valid _ rfl (hl.trans_le hn'), fun k hk => asInput_find _ _ _ k rfl (hb ▸ hk)⟩
  show (BitVec.ofNat 9 (envelopeBytes (fullFrame n).frameBytes).length).toNat = 5 + n
  rw [hb, BitVec.toNat_ofNat]; omega

theorem witness_DecodedEnvelopeIsStandardFrame :
    ∃ t, exec .envFromBytes (withInput [0xFE#8, 0x00#8, 0x21#8, 0x01#8, 0x20#8]) = .next t ∧
      t.status.extractLsb' 0 4 = 0#4 := decoded_envelope

/-- The envelope [FE 00 21 01 20] with byte j replaced by b, at another count of events. -/
def corrupted (j : Nat) (b : Byte) : State :=
  { withInput [] with
    mem := (Memory.putBytes [] 0x200 [0xFE#8, 0x00#8, 0x21#8, 0x01#8, 0x20#8]).put (0x200 + j) b, ibufLen := 5#9,
    draws := 7 }

/-- The start marker, the length, CMD0 and the check byte of a valid envelope changed, one at a time. -/
theorem witness_SingleByteCorruptionDetected :
    let s := withInput [0xFE#8, 0x00#8, 0x21#8, 0x01#8, 0x20#8]
    (∃ t, exec .envFromBytes s = .next t ∧ t.status.extractLsb' 0 4 = 0#4) ∧
    s.ibufLen.toNat = 5 + (s.ibufByte 1).toNat ∧
    (s.ibufByte 1).toNat < ((corrupted 1 0x01#8).ibufByte 1).toNat ∧
    ∀ c ∈ [(0, 0xFF#8), (1, 0x01#8), (2, 0xA1#8), (4, 0x21#8)],
      (corrupted c.1 c.2).ibufLen = s.ibufLen ∧ (corrupted c.1 c.2).ibufByte c.1 ≠ s.ibufByte c.1 ∧
      ∀ k, k < 5 + (s.ibufByte 1).toNat → k ≠ c.1 → (corrupted c.1 c.2).ibufByte k = s.ibufByte k := by
  refine ⟨decoded_envelope, by decide, by decide, fun c hc => ⟨rfl, ?_, fun k hn hk => ?_⟩⟩
  · fin_cases hc <;> decide
  · show (Memory.find (Memory.put _ (0x200 + c.1) c.2) (0x200 + k)).getD _ = _
    rw [Memory.find_put, if_neg (by omega)]
    have hk5 : k < 5 := hn
    interval_cases k <;> rfl

theorem witness_LinkMakeCtrlResult : (withInput []).ibufLen.toNat ≤ 256 ∧
    ({ State.reset with ibufLen := 256#9 } : State).ibufLen.toNat = 256 := by decide

theorem witness_TransportAcceptCompletes : (held [.accept]).inputs = .accept :: [] ∧
    (held [.accept]).pend = some (ackFrame 0x03#8) := by decide

/-- With no access and with two accesses between the issue and the accept step. -/
theorem witness_SendAckSendsSampledSequence :
    ∀ xs ∈ [[], [Access.write 0x006#11 0x07#8, Access.read 0x001#11]],
      (facing (put 0x000#11 0x41#8 :: (xs.map Event.host ++ .accept :: []))).status.getLsbD 5 = false ∧
      (facing (put 0x000#11 0x41#8 :: (xs.map Event.host ++ .accept :: []))).inputs =
        .host (.write 0x000#11 0x41#8) :: (xs.map Event.host ++ .accept :: []) := fun _ _ =>
  ⟨(by decide : (0x00#8).getLsbD 5 = false), rfl⟩

end Sys2Proof.Tests
end

/-! ## The state: what a step can do, and what every step keeps

First the facts about the model's functions (decoder, address map, memory, answers, events), then the obligations of
spec/10_state.md assembled from them. -/

namespace Sys2Proof.Machine

/-! ### Decoder and address map -/

theorem toNat_eq_fields (v : Byte) : v.toNat = 16 * famField v + fnField v := by
  simp only [famField, fnField, BitVec.extractLsb'_toNat, Nat.shiftRight_eq_div_pow]
  have := v.isLt
  omega

/-- The code an operation is decoded from is the one the operation map gives it (R64, R84). -/
theorem encode_of_decode (v : Byte) (i : Instr) (h : decode v = .ok i) : encode i = v := by
  have hv := toNat_eq_fields v
  unfold decode at h
  split at h
  case h_19 => cases h
  all_goals
    rename_i hfam hfn
    cases h
    rw [hfam, hfn] at hv
    exact BitVec.eq_of_toNat_eq hv.symm

theorem isBufferAddr_payload (i : Nat) (h : i < 250) : isBufferAddr (Config.payloadBase + i) = true := by
  rw [isBufferAddr_iff, Config.payloadBase]; omega

theorem isBufferAddr_ibuf (i : Nat) (h : i < 256) : isBufferAddr (Config.ibufBase + i) = true := by
  rw [isBufferAddr_iff, Config.ibufBase]; omega

theorem isBufferAddr_obuf (i : Nat) (h : i < 260) : isBufferAddr (Config.obufBase + i) = true := by
  rw [isBufferAddr_iff, Config.obufBase]; omega

/-- Every address names a cell that exists (R46). -/
theorem wellFormed_of_locAt (a : Addr) (l : Loc) (h : locAt a = some l) : l.wellFormed = true := by
  unfold locAt at h
  split at h
  case h_17 =>
    split at h
    · next hr => cases h; rw [wellFormed_payload]; exact Nat.sub_lt_left_of_lt_add hr.1 hr.2
    split at h
    · next hr => cases h; rw [wellFormed_ibuf]; exact Nat.sub_lt_left_of_lt_add hr.1 hr.2
    split at h
    · next hr => cases h; rw [wellFormed_obuf]; exact Nat.sub_lt_left_of_lt_add hr.1 hr.2
    · cases h
  all_goals cases h; rfl

/-- A host read of a buffer address reads that buffer byte, in each of the three buffers (R46). -/
theorem hostReadByte_buffer (a : Addr) (s : State) (h : isBufferAddr a.toNat = true) :
    hostReadByte a s = s.bufByte a.toNat := by
  rw [isBufferAddr_iff] at h
  rw [hostReadByte, locAt_buffer a (by omega)]
  rcases h with h | h | h
  · rw [if_pos h]
    exact congrArg s.bufByte (Nat.add_sub_cancel' h.1)
  · rw [if_neg (by omega), if_pos h]
    exact congrArg s.bufByte (Nat.add_sub_cancel' h.1)
  · rw [if_neg (by omega), if_neg (by omega), if_pos h]
    exact congrArg s.bufByte (Nat.add_sub_cancel' h.1)

/-- A read of a buffer byte that has not been written is the draw of this step there (R43). -/
theorem bufByte_of_find_none (s : State) (a : Nat) (h : s.mem.find a = none) :
    s.bufByte a = Config.drawByte s.draws a := by
  simp [State.bufByte, h]


/-! ### Acknowledgement frames -/

/-- The control byte of an acknowledgement is 0x80 plus the low three bits of its sequence number (R78). -/
theorem ackCtrl_eq (seq : Byte) : ackCtrl seq = BitVec.ofNat 8 (0x80 + seq.toNat % 8) := by
  revert seq; decide

theorem ackFrame_toList (seq : Byte) : (ackFrame seq).toList =
    [ackCtrl seq, highByte (crc16Xmodem [ackCtrl seq]), lowByte (crc16Xmodem [ackCtrl seq]), 0x7E#8] := rfl

/-! ### What one event does -/

/-- What one event can do to the state it is taken in, guards included. Every claim about all steps is a case analysis
of this. -/
inductive EventEffect (e : Event) (s t : State) : Prop where
  | read (a : Addr) (he : e = .host (.read a)) (h : t = hostRead a s)
  | statusWritten (a : Addr) (v : Byte) (he : e = .host (.write a v)) (ha : locAt a = some .status)
      (h : t = clearStatus v s)
  | ignored (a : Addr) (v : Byte) (he : e = .host (.write a v)) (ha : locAt a ≠ some .status)
      (hb : Status.busy s.status = true ∨ locAt a = none) (h : t = s)
  | stored (a : Addr) (v : Byte) (l : Loc) (he : e = .host (.write a v)) (ha : locAt a = some l)
      (hidle : Status.busy s.status = false) (h : t = storeLoc l v s)
  | issued (a : Addr) (v : Byte) (i : Instr) (he : e = .host (.write a v)) (ha : locAt a = some .op)
      (hidle : Status.busy s.status = false) (hv : decode v = .ok i) (h : Shape i (s.beginIssue v) t)
  | illegal (a : Addr) (v : Byte) (he : e = .host (.write a v)) (ha : locAt a = some .op)
      (hidle : Status.busy s.status = false)
      (h : t = { s.beginIssue v with status := Status.raised .illegalOperation (s.beginIssue v).status })
  | accepted (f : Vector Byte 4) (he : e = .accept) (hf : s.pend = some f) (h : t = transportAccept s)
  | notEnabled (he : e = .accept) (hf : s.pend = none) (h : t = s)
  | reset (he : e = .reset) (h : t = assertReset s)

theorem issue_effect (a : Addr) (v : Byte) (s t : State) (ha : locAt a = some .op)
    (hidle : Status.busy s.status = false) (h : issue v s = .next t) :
    EventEffect (.host (.write a v)) s t := by
  unfold issue at h
  split at h
  case h_1 i hv => exact .issued a v i rfl ha hidle hv (exec_shape i _ t h)
  case h_2 => exact .illegal a v rfl ha hidle ((raise_eq _ _ _).mp h)

theorem hostWrite_effect (a : Addr) (v : Byte) (s t : State) (h : hostWrite a v s = .next t) :
    EventEffect (.host (.write a v)) s t := by
  unfold hostWrite at h
  split at h
  case h_1 ha => cases h; exact .statusWritten a v rfl ha rfl
  case h_2 ha =>
    split at h
    · next hb => cases h; exact .ignored a v rfl (by rw [ha]; nofun) (.inl hb) rfl
    · next hb => exact issue_effect a v s t ha (Bool.eq_false_iff.mpr hb) h
  case h_3 l hl _ ha =>
    split at h
    · next hb => cases h; exact .ignored a v rfl (fun hs => hl (Option.some.inj (ha.symm.trans hs))) (.inl hb) rfl
    · next hb => cases h; exact .stored a v l rfl ha (Bool.eq_false_iff.mpr hb) rfl
  case h_4 ha => cases h; exact .ignored a v rfl (by rw [ha]; nofun) (.inr ha) rfl

theorem takeEvent_effect (e : Event) (s t : State) (h : takeEvent e s = .next t) : EventEffect e s t := by
  unfold takeEvent at h
  split at h
  case h_1 a => cases h; exact .read a rfl rfl
  case h_2 a v => exact hostWrite_effect a v s t h
  case h_3 =>
    cases h
    cases hp : s.pend with
    | none => exact .notEnabled rfl hp (transportAccept_none s hp)
    | some f => exact .accepted f rfl hp rfl
  case h_4 => cases h; exact .reset rfl rfl

/-- What a step does: nothing, with no event to come, or the effect of the event it takes. -/
theorem step_effect (s t : State) (h : step s = .next t) :
    (s.inputs = [] ∧ t = s) ∨ ∃ e rest, s.inputs = e :: rest ∧ EventEffect e (s.advance rest) t := by
  cases hin : s.inputs with
  | nil =>
    rw [step_nil s hin] at h
    cases h
    exact .inl ⟨rfl, rfl⟩
  | cons e rest =>
    rw [step_cons s e rest hin] at h
    exact .inr ⟨e, rest, rfl, takeEvent_effect e _ t h⟩

/-- A run of one step more is a step and the rest of the run. -/
theorem run_succ_cases (M : Host.Core) (n : Nat) (s t : M.State) (h : M.run (n + 1) s = .next t) :
    ∃ u, M.step s = .next u ∧ M.run n u = .next t := by
  unfold Host.Core.run at h
  split at h
  case h_1 u hu => exact ⟨u, hu, h⟩
  all_goals cases h

theorem runSteps_succ_cases (n : Nat) (s t : State) (h : runSteps (n + 1) s = .next t) :
    ∃ u, step s = .next u ∧ runSteps n u = .next t :=
  run_succ_cases Sys2Proof.core n s t h

/-! ### What a host store and an operation leave alone -/

section
variable (l : Loc) (v : Byte) (s : State)

@[simp] theorem storeLoc_op : (storeLoc l v s).op = s.op := by cases l <;> rfl
@[simp] theorem storeLoc_status : (storeLoc l v s).status = s.status := by cases l <;> rfl
@[simp] theorem storeLoc_res : (storeLoc l v s).res = s.res := by cases l <;> rfl
@[simp] theorem storeLoc_consumed : (storeLoc l v s).consumed = s.consumed := by cases l <;> rfl
@[simp] theorem storeLoc_obufLen : (storeLoc l v s).obufLen = s.obufLen := by cases l <;> rfl
@[simp] theorem storeLoc_pend : (storeLoc l v s).pend = s.pend := by cases l <;> rfl
@[simp] theorem storeLoc_txlog : (storeLoc l v s).txlog = s.txlog := by cases l <;> rfl
@[simp] theorem storeLoc_inputs : (storeLoc l v s).inputs = s.inputs := by cases l <;> rfl
@[simp] theorem storeLoc_reads : (storeLoc l v s).reads = s.reads := by cases l <;> rfl
@[simp] theorem storeLoc_draws : (storeLoc l v s).draws = s.draws := by cases l <;> rfl

end

/-- No operation writes IBUF: payloads are stored below it and outputs above it (R34). -/
theorem Staged.find_ibuf {s u : State} (h : Staged s u) (a : Nat) (h1 : 0x200 ≤ a) (h2 : a < 0x300) :
    u.mem.find a = s.mem.find a := by
  rcases h.store with ⟨hm, -⟩ | ⟨bs, hb, hm, -⟩ | ⟨bs, -, hm, -⟩
  · rw [hm]
  · rw [hm, Memory.find_putBytes_of_ge _ _ _ _ (by rw [Config.payloadBase]; omega)]
  · rw [hm, Memory.find_putBytes_of_lt _ _ _ _ (by rw [Config.obufBase]; omega)]

theorem Shape.txlog_eq {i : Instr} {s t : State} (h : Shape i s t) : t.txlog = s.txlog := by
  cases h with
  | raised k h => rw [h]
  | held _ h => rw [h]
  | committed u hu _ h => rw [h]; exact hu.txlog

theorem Shape.draws_eq {i : Instr} {s t : State} (h : Shape i s t) : t.draws = s.draws := by
  cases h with
  | raised k h => rw [h]
  | held _ h => rw [h]
  | committed u hu _ h => rw [h]; exact hu.draws

theorem transportAccept_draws (s : State) : (transportAccept s).draws = s.draws := by
  unfold transportAccept; split <;> rfl

/-- No event but the accept step writes TXLOG (R38). -/
theorem EventEffect.txlog_cases {e : Event} {s t : State} (h : EventEffect e s t) :
    (∃ f, e = .accept ∧ s.pend = some f ∧ t.txlog = s.txlog ++ [f.toList]) ∨ t.txlog = s.txlog := by
  cases h with
  | accepted f he hf h => exact .inl ⟨f, he, hf, by rw [h, transportAccept_some s f hf]⟩
  | read a _ h => exact .inr (by rw [h, hostRead_txlog])
  | statusWritten a v _ _ h => exact .inr (by rw [h, clearStatus_txlog])
  | ignored a v _ _ _ h => exact .inr (by rw [h])
  | notEnabled _ _ h => exact .inr (by rw [h])
  | stored a v l _ _ _ h => exact .inr (by rw [h, storeLoc_txlog])
  | issued a v i _ _ _ _ h => exact .inr h.txlog_eq
  | illegal a v _ _ _ h => exact .inr (by rw [h, State.beginIssue_txlog])
  | reset _ h => exact .inr (by rw [h, assertReset_txlog])

/-- No event moves the count of draws: the step itself counts (log entry 1). -/
theorem EventEffect.draws_eq {e : Event} {s t : State} (h : EventEffect e s t) : t.draws = s.draws := by
  cases h with
  | read a _ h => rw [h, hostRead_draws]
  | statusWritten a v _ _ h => rw [h, clearStatus_draws]
  | ignored a v _ _ _ h => rw [h]
  | notEnabled _ _ h => rw [h]
  | stored a v l _ _ _ h => rw [h, storeLoc_draws]
  | issued a v i _ _ _ _ h => exact h.draws_eq
  | illegal a v _ _ _ h => rw [h, State.beginIssue_draws]
  | accepted f _ _ h => rw [h, transportAccept_draws]
  | reset _ h => rw [h, assertReset_draws]

/-! ### STATUS does not steer an operation -/

/-- Two answers that agree in everything but STATUS, and in ERR too. -/
def AgreeOffStatus (x y : Answer) : Prop :=
  ∃ t u : State, x = .next t ∧ y = .next u ∧ u = { t with status := u.status } ∧
    Status.err u.status = Status.err t.status

theorem commit_agree (s r : State) (h : r = { s with status := r.status }) : AgreeOffStatus (commit s) (commit r) := by
  rw [h]
  exact ⟨_, _, rfl, rfl, rfl, by simp⟩

theorem raise_agree (k : ErrorKind) (s r : State) (h : r = { s with status := r.status }) :
    AgreeOffStatus (raise k s) (raise k r) := by
  rw [h]
  exact ⟨_, _, rfl, rfl, rfl, by simp⟩

/-- A check that both sides decide alike. -/
theorem ite_agree {p : Prop} [Decidable p] {x x' y y' : Answer} (hx : AgreeOffStatus x x')
    (hy : AgreeOffStatus y y') : AgreeOffStatus (if p then x else y) (if p then x' else y') := by
  split
  · exact hx
  · exact hy

/-- No check and no staged write of an operation reads STATUS (R40). -/
theorem exec_agreeOffStatus (i : Instr) (s : State) (st : Byte) (hi : i ≠ .linkSendAck) :
    AgreeOffStatus (exec i s) (exec i { s with status := st }) := by
  cases i with
  | nop | cwFromU16 | cwSubsystem | cwType | cwName | cwSerialize | hdrSerialize | checksum | linkMakeCtrl
  | linkParseCtrl => exact commit_agree _ _ rfl
  | cwFromBytes => exact ite_agree (raise_agree _ _ _ rfl) (commit_agree _ _ rfl)
  | hdrFromBytes =>
    exact ite_agree (raise_agree _ _ _ rfl) (ite_agree (raise_agree _ _ _ rfl) (commit_agree _ _ rfl))
  | frameFromBytes =>
    exact ite_agree (raise_agree _ _ _ rfl) (ite_agree (raise_agree _ _ _ rfl)
      (ite_agree (raise_agree _ _ _ rfl) (commit_agree _ _ rfl)))
  | frameSerialize => exact ite_agree (raise_agree _ _ _ rfl) (commit_agree _ _ rfl)
  | envFromBytes =>
    exact ite_agree (raise_agree _ _ _ rfl) (ite_agree (raise_agree _ _ _ rfl)
      (ite_agree (raise_agree _ _ _ rfl) (ite_agree (raise_agree _ _ _ rfl)
        (ite_agree (raise_agree _ _ _ rfl) (commit_agree _ _ rfl)))))
  | envSerialize =>
    exact ite_agree (raise_agree _ _ _ rfl) (ite_agree (raise_agree _ _ _ rfl) (commit_agree _ _ rfl))
  | envCommand => exact ite_agree (raise_agree _ _ _ rfl) (commit_agree _ _ rfl)
  | linkSendAck => exact absurd rfl hi

/-! ### Legal states -/

/-- A write to memory forgets no byte written before. -/
theorem Memory.isSome_find_putBytes (m : Memory) (a : Nat) (bs : List Byte) (x : Nat)
    (h : (m.find x).isSome = true) : ((m.putBytes a bs).find x).isSome = true := by
  rw [Memory.find_putBytes]
  split
  · next hx => rw [List.getElem?_eq_getElem (by omega)]; rfl
  · exact h

/-- The part of `State.Inv` that speaks of memory and OBUF_LEN. -/
structure OutputLegal (m : Memory) (n : BitVec 9) : Prop where
  wf : m.wf
  len_le : n.toNat ≤ 260
  written : ∀ i, i < n.toNat → (m.find (Config.obufBase + i)).isSome = true

theorem OutputLegal.putBytes {m : Memory} {n : BitVec 9} (h : OutputLegal m n) (a : Nat) (bs : List Byte)
    (ha : ∀ k, k < bs.length → isBufferAddr (a + k) = true) : OutputLegal (m.putBytes a bs) n :=
  ⟨Memory.wf_putBytes m a bs h.wf ha, h.len_le,
    fun i hi => Memory.isSome_find_putBytes m a bs _ (h.written i hi)⟩

/-- An output of at most 260 bytes stands in OBUF, whatever stood there before (R35, R152). -/
theorem OutputLegal.output {m : Memory} (h : m.wf) (bs : List Byte) (hb : bs.length ≤ 260) :
    OutputLegal (m.putBytes Config.obufBase bs) (BitVec.ofNat 9 bs.length) := by
  have hn : (BitVec.ofNat 9 bs.length).toNat = bs.length := by rw [BitVec.toNat_ofNat]; omega
  refine ⟨Memory.wf_putBytes m _ bs h fun k hk => isBufferAddr_obuf k (by omega), by omega, fun i hi => ?_⟩
  rw [Memory.find_putBytes_at m _ bs i (by omega)]
  rfl

/-- The part of `State.Inv` that speaks of the buffers and their lengths, which STATUS, OP and PEND do not touch. -/
structure State.DataLegal (s : State) : Prop where
  output : OutputLegal s.mem s.obufLen
  ibufLen_le : s.ibufLen.toNat ≤ 256
  consumed_le : s.consumed.toNat ≤ 255

theorem State.Inv.dataLegal {s : State} (h : s.Inv) : s.DataLegal :=
  ⟨⟨h.mem_wf, h.obufLen_le, h.output_written⟩, h.ibufLen_le, h.consumed_le⟩

theorem State.DataLegal.of_eq {s t : State} (h : s.DataLegal) (hm : t.mem = s.mem) (ho : t.obufLen = s.obufLen)
    (hi : t.ibufLen = s.ibufLen) (hc : t.consumed = s.consumed) : t.DataLegal :=
  ⟨by rw [hm, ho]; exact h.output, hi ▸ h.ibufLen_le, hc ▸ h.consumed_le⟩

theorem Staged.dataLegal {s u : State} (hu : Staged s u) (h : s.DataLegal) : u.DataLegal := by
  refine ⟨?_, hu.ibufLen ▸ h.ibufLen_le, ?_⟩
  · rcases hu.store with ⟨hm, ho⟩ | ⟨bs, hb, hm, ho⟩ | ⟨bs, hb, hm, ho⟩
    · rw [hm, ho]; exact h.output
    · rw [hm, ho]; exact h.output.putBytes _ bs fun k hk => isBufferAddr_payload k (by omega)
    · rw [hm, ho]; exact OutputLegal.output h.output.wf bs (hb h.ibufLen_le)
  · rcases hu.consumed with hc | hc
    · rw [hc]; exact h.consumed_le
    · exact hc

theorem storeLoc_dataLegal (l : Loc) (v : Byte) (s : State) (hl : l.wellFormed = true) (h : s.DataLegal) :
    (storeLoc l v s).DataLegal := by
  refine ⟨?_, ?_, by rw [storeLoc_consumed]; exact h.consumed_le⟩
  · cases l with
    | payload i =>
      rw [wellFormed_payload] at hl
      exact h.output.putBytes _ [v] fun k hk => by
        rw [List.length_singleton] at hk; rw [Nat.add_assoc]; exact isBufferAddr_payload _ (by omega)
    | ibuf i =>
      rw [wellFormed_ibuf] at hl
      exact h.output.putBytes _ [v] fun k hk => by
        rw [List.length_singleton] at hk; rw [Nat.add_assoc]; exact isBufferAddr_ibuf _ (by omega)
    | _ => exact h.output
  · cases l with
    | ibufLenLo | ibufLenHi => exact (clampIbufLen_toNat _).trans_le (Nat.min_le_right _ _)
    | _ => exact h.ibufLen_le

/-- A legal state whose operation has completed: DONE is 1 and nothing is held (R19, R20). -/
theorem State.Inv.of_done {s : State} (hd : s.DataLegal) (herr : (Status.err s.status).toNat ≤ 6)
    (hres : Status.reserved s.status = false) (hbusy : Status.busy s.status = false)
    (hdone : Status.done s.status = true) (hp : s.pend = none)
    (ht : ∀ f ∈ s.txlog, ∃ seq, f = (ackFrame seq).toList) : s.Inv where
  mem_wf := hd.output.wf
  ibufLen_le := hd.ibufLen_le
  obufLen_le := hd.output.len_le
  output_written := hd.output.written
  consumed_le := hd.consumed_le
  err_le := herr
  reserved_zero := hres
  busy_iff_pend := by rw [hbusy, hp]; rfl
  held_op := by rw [hp]; nofun
  never_issued := by rw [hdone]; nofun
  pend_ack := by rw [hp]; nofun
  txlog_acks := ht

/-- `State.Inv` speaks of no register but OP, STATUS, CONSUMED and the lengths. -/
theorem State.Inv.of_control_eq {s t : State} (h : s.Inv) (hd : t.DataLegal) (hop : t.op = s.op)
    (hst : t.status = s.status) (hp : t.pend = s.pend) (ht : t.txlog = s.txlog) : t.Inv where
  mem_wf := hd.output.wf
  ibufLen_le := hd.ibufLen_le
  obufLen_le := hd.output.len_le
  output_written := hd.output.written
  consumed_le := hd.consumed_le
  err_le := hst ▸ h.err_le
  reserved_zero := hst ▸ h.reserved_zero
  busy_iff_pend := by rw [hst, hp]; exact h.busy_iff_pend
  held_op := by rw [hp, hst, hop]; exact h.held_op
  never_issued := by rw [hp, hst, hop]; exact h.never_issued
  pend_ack := by rw [hp]; exact h.pend_ack
  txlog_acks := by rw [ht]; exact h.txlog_acks

theorem State.Inv.pend_eq_none {s : State} (h : s.Inv) (hidle : Status.busy s.status = false) : s.pend = none := by
  have hp := h.busy_iff_pend
  rw [hidle] at hp
  exact Option.isNone_iff_eq_none.mp (by rw [← Option.not_isSome, ← hp]; rfl)

theorem State.Inv.advance {s : State} (h : s.Inv) (rest : List Event) : (s.advance rest).Inv :=
  h.of_control_eq (h.dataLegal.of_eq rfl rfl rfl rfl) rfl rfl rfl rfl

theorem State.Inv.hostRead {s : State} (h : s.Inv) (a : Addr) : (Machine.hostRead a s).Inv :=
  h.of_control_eq (h.dataLegal.of_eq rfl rfl rfl rfl) rfl rfl rfl rfl

theorem State.Inv.storeLoc {s : State} (h : s.Inv) (l : Loc) (v : Byte) (hl : l.wellFormed = true) :
    (Machine.storeLoc l v s).Inv :=
  h.of_control_eq (storeLoc_dataLegal l v s hl h.dataLegal) (storeLoc_op l v s) (storeLoc_status l v s)
    (storeLoc_pend l v s) (storeLoc_txlog l v s)

/-- Clearing STICKY touches none of the bits of STATUS that `State.Inv` speaks of (R21). -/
theorem State.Inv.clearStatus {s : State} (h : s.Inv) (v : Byte) : (Machine.clearStatus v s).Inv where
  mem_wf := h.mem_wf
  ibufLen_le := h.ibufLen_le
  obufLen_le := h.obufLen_le
  output_written := h.output_written
  consumed_le := h.consumed_le
  err_le := by simpa using h.err_le
  reserved_zero := by simpa using h.reserved_zero
  busy_iff_pend := by simpa using h.busy_iff_pend
  held_op := by simpa using h.held_op
  never_issued := by simpa using h.never_issued
  pend_ack := h.pend_ack
  txlog_acks := h.txlog_acks

theorem ErrorKind.code_le (k : ErrorKind) : k.code.toNat ≤ 6 := by cases k <;> decide

/-- A raise right after the start of an issue, by an operation or for an illegal code (R90, R132). -/
theorem State.Inv.raised {s : State} (h : s.Inv) (hidle : Status.busy s.status = false) (v : Byte) (k : ErrorKind) :
    State.Inv { s.beginIssue v with status := Status.raised k (s.beginIssue v).status } :=
  .of_done (s := { s.beginIssue v with status := Status.raised k (s.beginIssue v).status })
    (h.dataLegal.of_eq rfl rfl rfl rfl)
    (by simpa using k.code_le) (by simpa using h.reserved_zero) (by simpa using hidle) (by simp)
    (h.pend_eq_none hidle) h.txlog_acks

/-- LINK_SEND_ACK holds: OP is its code, DONE is 0 and PEND takes an acknowledgement frame (R95, R124). -/
theorem State.Inv.held {s : State} (h : s.Inv) (v seq : Byte) (hv : v = 0x41#8) :
    State.Inv { s.beginIssue v with
      pend := some (ackFrame seq), status := Status.setBusy (s.beginIssue v).status } where
  mem_wf := h.mem_wf
  ibufLen_le := h.ibufLen_le
  obufLen_le := h.obufLen_le
  output_written := h.output_written
  consumed_le := h.consumed_le
  err_le := by simpa using h.err_le
  reserved_zero := by simpa using h.reserved_zero
  busy_iff_pend := by simp
  held_op _ := by simpa using hv
  never_issued := nofun
  pend_ack f hf := ⟨seq, (Option.some.inj hf).symm⟩
  txlog_acks := h.txlog_acks

/-- Every answer of an operation issued on an idle legal state is legal. -/
theorem State.Inv.issued {s t : State} (h : s.Inv) (hidle : Status.busy s.status = false) (v : Byte) (i : Instr)
    (hv : decode v = .ok i) (ht : Shape i (s.beginIssue v) t) : t.Inv := by
  cases ht with
  | raised k ht => rw [ht]; exact h.raised hidle v k
  | held hi ht =>
    rw [hi] at hv
    rw [ht]; exact h.held v _ (encode_of_decode v _ hv).symm
  | committed u hu _ ht =>
    have hst : u.status = Status.clearDone s.status := hu.status
    rw [ht]
    refine .of_done ?_ ?_ ?_ ?_ ?_ ?_ ?_
    · exact (hu.dataLegal (h.dataLegal.of_eq rfl rfl rfl rfl)).of_eq rfl rfl rfl rfl
    · simp
    · simpa [hst] using h.reserved_zero
    · simpa [hst] using hidle
    · simp
    · exact hu.pend.trans (h.pend_eq_none hidle)
    · intro f hf
      exact h.txlog_acks f (hu.txlog ▸ hf)

/-- The accept step completes the held operation, and its frame joins TXLOG (R124, R137). -/
theorem State.Inv.accepted {s : State} (h : s.Inv) (f : Vector Byte 4) (hf : s.pend = some f) :
    (transportAccept s).Inv := by
  obtain ⟨herr, hdone, hbusy, -, hres⟩ := Status.accepted_fields s.status
  rw [transportAccept_some s f hf]
  refine .of_done ?_ ?_ ?_ ?_ ?_ ?_ ?_
  · exact ⟨.output h.mem_wf f.toList (by simp), h.ibufLen_le, h.consumed_le⟩
  · exact (congrArg BitVec.toNat herr).trans_le (by decide)
  · exact hres.trans h.reserved_zero
  · exact hbusy
  · exact hdone
  · rfl
  · intro g hg
    rcases List.mem_append.mp hg with hg | hg
    · exact h.txlog_acks g hg
    · obtain ⟨seq, hseq⟩ := h.pend_ack f hf
      exact ⟨seq, by rw [List.mem_singleton.mp hg, hseq]⟩

/-- RESET leads to a legal state from any state whose TXLOG holds acknowledgement frames alone (R143). -/
theorem assertReset_inv (s : State) (h : ∀ f ∈ s.txlog, ∃ seq, f = (ackFrame seq).toList) :
    (assertReset s).Inv where
  mem_wf := ⟨.nil, nofun⟩
  ibufLen_le := Nat.zero_le _
  obufLen_le := Nat.zero_le _
  output_written _ hi := absurd hi (Nat.not_lt_zero _)
  consumed_le := Nat.zero_le _
  err_le := Nat.zero_le _
  reserved_zero := (by decide : Status.reserved 0x00#8 = false)
  busy_iff_pend := (by decide : Status.busy 0x00#8 = false)
  held_op := nofun
  never_issued _ _ := ⟨rfl, rfl⟩
  pend_ack := nofun
  txlog_acks := h

/-- Every event keeps a state legal. -/
theorem EventEffect.inv {e : Event} {s t : State} (he : EventEffect e s t) (h : s.Inv) : t.Inv := by
  cases he with
  | read a _ ht => rw [ht]; exact h.hostRead a
  | statusWritten a v _ _ ht => rw [ht]; exact h.clearStatus v
  | ignored a v _ _ _ ht => rw [ht]; exact h
  | notEnabled _ _ ht => rw [ht]; exact h
  | stored a v l _ ha _ ht => rw [ht]; exact h.storeLoc l v (wellFormed_of_locAt a l ha)
  | issued a v i _ _ hidle hv ht => exact h.issued hidle v i hv ht
  | illegal a v _ _ hidle ht => rw [ht]; exact h.raised hidle v .illegalOperation
  | accepted f _ hf ht => rw [ht]; exact h.accepted f hf
  | reset _ ht => rw [ht]; exact assertReset_inv s h.txlog_acks

/-! ### The obligations of spec/10_state.md -/

/-- Settles O8, by the effects a step can have. -/
theorem stepKeepsLegal : Obligations.StepKeepsLegal := by
  intro s t h hstep
  rcases step_effect s t hstep with ⟨-, ht⟩ | ⟨e, rest, -, he⟩
  · rw [ht]; exact h
  · exact he.inv (h.advance rest)

/-- Settles O14, by the effects a step can have on TXLOG. -/
theorem onlyAcceptAppendsToTxlog : Obligations.OnlyAcceptAppendsToTxlog := by
  intro s t hstep
  rcases step_effect s t hstep with ⟨-, ht⟩ | ⟨e, rest, hin, he⟩
  · exact .inr (by rw [ht])
  · rcases he.txlog_cases with ⟨f, hacc, hf, ht⟩ | ht
    · exact .inl ⟨f, rest, hacc ▸ hin, hf, ht⟩
    · exact .inr ht

/-- A step from a legal state adds acknowledgement frames to TXLOG, if anything. -/
theorem step_txlog_acks (s t : State) (h : s.Inv) (hstep : step s = .next t) :
    ∃ fs : List (List Byte), t.txlog = s.txlog ++ fs ∧ ∀ f ∈ fs, ∃ seq, f = (ackFrame seq).toList := by
  rcases onlyAcceptAppendsToTxlog s t hstep with ⟨f, -, -, hf, ht⟩ | ht
  · obtain ⟨seq, hseq⟩ := h.pend_ack f hf
    exact ⟨[f.toList], ht, fun g hg => ⟨seq, by rw [List.mem_singleton.mp hg, hseq]⟩⟩
  · exact ⟨[], by rw [ht, List.append_nil], nofun⟩

/-- Every run from a legal state adds acknowledgement frames to TXLOG, if anything. -/
theorem runSteps_txlog_acks (n : Nat) (s t : State) (h : s.Inv) (hrun : runSteps n s = .next t) :
    ∃ fs : List (List Byte), t.txlog = s.txlog ++ fs ∧ ∀ f ∈ fs, ∃ seq, f = (ackFrame seq).toList := by
  induction n generalizing s with
  | zero =>
    cases hrun
    exact ⟨[], (List.append_nil _).symm, nofun⟩
  | succ n ih =>
    obtain ⟨u, hstep, hrest⟩ := runSteps_succ_cases n s t hrun
    obtain ⟨fs, hfs, hacks⟩ := step_txlog_acks s u h hstep
    obtain ⟨gs, hgs, hacks'⟩ := ih u (stepKeepsLegal s u h hstep) hrest
    refine ⟨fs ++ gs, by rw [hgs, hfs, List.append_assoc], fun f hf => ?_⟩
    exact (List.mem_append.mp hf).elim (hacks f) (hacks' f)

/-- Settles O13, by induction on the number of steps (`runSteps_txlog_acks`) and the layout of a frame. -/
theorem txlogOnlyGrowsByAckFrames : Obligations.TxlogOnlyGrowsByAckFrames := by
  intro n s t h hrun
  obtain ⟨fs, hfs, hacks⟩ := runSteps_txlog_acks n s t h hrun
  refine ⟨fs, hfs, fun f hf => ?_⟩
  obtain ⟨seq, rfl⟩ := hacks f hf
  rw [ackFrame_toList, ackCtrl_eq]
  exact ⟨rfl, ⟨seq.toNat % 8, Nat.mod_lt _ (by decide), rfl⟩, rfl⟩

/-- Settles O22, by the bits of `Status.hostWritten`. -/
theorem statusWriteOnlyClearsSticky : Obligations.StatusWriteOnlyClearsSticky := by
  intro s v rest hin
  refine ⟨clearStatus v (s.advance rest), step_cons s _ rest hin, ?_, fun k _ hk => ?_, rfl⟩
  · rw [clearStatus_status, Status.hostWritten_bits]; simp
  · rw [clearStatus_status, Status.hostWritten_bits]; simp [hk]

/-- Settles O30, by the three shapes of an operation's answer. -/
theorem operationsKeepHostState : Obligations.OperationsKeepHostState := by
  intro i s t h
  cases exec_shape i s t h with
  | raised k ht => subst ht; exact ⟨rfl, rfl, rfl, rfl, rfl, rfl, rfl, fun _ _ _ => rfl⟩
  | held _ ht => subst ht; exact ⟨rfl, rfl, rfl, rfl, rfl, rfl, rfl, fun _ _ _ => rfl⟩
  | committed u hu _ ht =>
    subst ht
    exact ⟨hu.op, hu.arg, hu.ibufLen, hu.txlog, hu.inputs, hu.reads, hu.draws, hu.find_ibuf⟩

/-- Settles O31: LINK_SEND_ACK holds whatever STATUS is, and every other operation by `exec_agreeOffStatus`. -/
theorem outcomeIgnoresStatus : Obligations.OutcomeIgnoresStatus := by
  intro i s t st h
  by_cases hi : i = .linkSendAck
  · subst hi
    cases h
    exact ⟨_, rfl, rfl, fun hne => absurd rfl hne⟩
  · obtain ⟨t', u, ht, hu, hrest, herr⟩ := exec_agreeOffStatus i s st hi
    cases ht.symm.trans h
    exact ⟨u, hu, hrest, fun _ => herr⟩

/-- Settles O32, by the bound every committed LEN has in `Staged`. -/
theorem decodersKeepLengthInRange : Obligations.DecodersKeepLengthInRange := by
  intro i s t h
  cases exec_shape i s t h with
  | raised k ht => exact .inl (by rw [ht])
  | held _ ht => exact .inl (by rw [ht])
  | committed u hu _ ht => rw [ht]; exact hu.len

/-- Settles O7: power-on is a RESET with TXLOG empty. -/
theorem resetIsLegal : Obligations.ResetIsLegal := assertReset_inv State.reset nofun

/-- Settles O9, field by field. -/
theorem resetValues : Obligations.ResetValues :=
  ⟨rfl, rfl, rfl, rfl, rfl, rfl, rfl, rfl, rfl, rfl, rfl, rfl, rfl, Memory.find_nil⟩

/-- Settles O23: a buffer address reads through `State.bufByte`, for the host and for an operation alike. -/
theorem unwrittenBytesAreDraws : Obligations.UnwrittenBytesAreDraws := by
  refine ⟨fun s a ha hnone => ?_, fun s i => bufByte_of_find_none s _, fun s i => bufByte_of_find_none s _,
    fun s i v => bufByte_of_find s _ v, fun s i v => bufByte_of_find s _ v, fun s t hin hstep => ?_⟩
  · rw [hostReadByte_buffer a s (by rw [isBufferAddr_iff]; omega), bufByte_of_find_none s _ hnone]
  · rcases step_effect s t hstep with ⟨hnil, -⟩ | ⟨e, rest, -, he⟩
    · exact absurd hnil hin
    · exact he.draws_eq

end Sys2Proof.Machine

/-! ## Memory: the address map, the host port and what an operation reads

First the facts about the address map, the host's view of the registers and a host access as one step, then what an
operation may read; each obligation of spec/20_memory.md stands after the facts it is assembled from. -/

namespace Sys2Proof.Machine

/-! ### The address map -/

/-- The sixteen addresses below 0x010 each name the register that stands there (R46). -/
theorem locAt_register (a : Addr) (h : a.toNat < 0x010) : (locAt a).map locAddr = some a := by
  have hall : ∀ k : Fin 16, (locAt (BitVec.ofNat 11 k)).map locAddr = some (BitVec.ofNat 11 k) := by decide
  simpa using hall ⟨a.toNat, h⟩

/-- The reserved ranges of R46. -/
theorem locAt_eq_none_iff (a : Addr) : locAt a = none ↔
    ((0x010 ≤ a.toNat ∧ a.toNat ≤ 0x0FF) ∨ (0x1FA ≤ a.toNat ∧ a.toNat ≤ 0x1FF) ∨
      (0x300 ≤ a.toNat ∧ a.toNat ≤ 0x3FF) ∨ 0x504 ≤ a.toNat) := by
  by_cases hreg : a.toNat < 0x010
  · have hmap := locAt_register a hreg
    constructor
    · intro hnone
      rw [hnone] at hmap
      cases hmap
    · omega
  · rw [locAt_buffer a (by omega)]
    split
    · simp only [reduceCtorEq, false_iff]; omega
    split
    · simp only [reduceCtorEq, false_iff]; omega
    split
    · simp only [reduceCtorEq, false_iff]; omega
    · simp only [true_iff]; omega

/-- The map sends the address of a cell back to that cell (R46). -/
theorem locAt_locAddr (l : Loc) (h : l.wellFormed = true) : locAt (locAddr l) = some l := by
  cases l with
  | payload i =>
    rw [wellFormed_payload] at h
    have hi := locAddr_payload i h
    rw [locAt_buffer _ (by omega), if_pos (by omega), hi, Nat.add_sub_cancel_left]
  | ibuf i =>
    rw [wellFormed_ibuf] at h
    have hi := locAddr_ibuf i h
    rw [locAt_buffer _ (by omega), if_neg (by omega), if_pos (by omega), hi, Nat.add_sub_cancel_left]
  | obuf i =>
    rw [wellFormed_obuf] at h
    have hi := locAddr_obuf i h
    rw [locAt_buffer _ (by omega), if_neg (by omega), if_neg (by omega), if_pos (by omega), hi,
      Nat.add_sub_cancel_left]
  | _ => rfl

/-- No two addresses name one location (R46). -/
theorem locAddr_of_locAt (a : Addr) (l : Loc) (h : locAt a = some l) : locAddr l = a := by
  by_cases hreg : a.toNat < 0x010
  · have hmap := locAt_register a hreg
    rw [h] at hmap
    exact Option.some.inj hmap
  · apply BitVec.eq_of_toNat_eq
    rw [locAt_buffer a (by omega)] at h
    split at h
    · cases h; rw [locAddr_payload _ (by omega)]; omega
    split at h
    · cases h; rw [locAddr_ibuf _ (by omega)]; omega
    split at h
    · cases h; rw [locAddr_obuf _ (by omega)]; omega
    · cases h

/-- Settles O3, from the two directions of the map and its holes. -/
theorem addressMapAgrees : Obligations.AddressMapAgrees :=
  ⟨locAt_locAddr, fun a l h => ⟨wellFormed_of_locAt a l h, locAddr_of_locAt a l h⟩, locAt_eq_none_iff⟩

/-! ### The bytes of a register -/

theorem lowByte_toNat (w : Word16) : (lowByte w).toNat = w.toNat % 256 := by simp [lowByte]

theorem highByte_toNat (w : Word16) : (highByte w).toNat = w.toNat / 256 := by
  simp only [highByte, BitVec.extractLsb'_toNat, Nat.shiftRight_eq_div_pow]; omega

theorem wordOf_toNat (hi lo : Byte) : (wordOf hi lo).toNat = hi.toNat * 256 + lo.toNat := by
  rw [wordOf, BitVec.toNat_append, ← Nat.shiftLeft_add_eq_or_of_lt lo.isLt, Nat.shiftLeft_eq]

/-- Bits 7:0 of a 9-bit length. -/
theorem length_lowByte_toNat (n : BitVec 9) : (n.extractLsb' 0 8).toNat = n.toNat % 256 := by simp

/-- Bit 8 of a 9-bit length. -/
theorem length_highBit_toNat (n : BitVec 9) : (n.extractLsb' 8 1).toNat = n.toNat / 256 := by
  simp only [BitVec.extractLsb'_toNat, Nat.shiftRight_eq_div_pow]; omega

theorem bit0_toNat (v : Byte) : (v.extractLsb' 0 1).toNat = v.toNat % 2 := by simp

/-- The two bytes of a 16-bit register, as the host reads them (R51). -/
theorem lowByte_add_highByte (w : Word16) : (lowByte w).toNat + 256 * (highByte w).toNat = w.toNat := by
  rw [lowByte_toNat, highByte_toNat]; omega

/-- The two bytes of IBUF_LEN or OBUF_LEN, as the host reads them: bits 7:1 of the upper one are 0 (R22, R51). -/
theorem lengthBytes_toNat (n : BitVec 9) :
    (n.extractLsb' 0 8).toNat + 256 * ((n.extractLsb' 8 1).setWidth 8).toNat = n.toNat := by
  rw [BitVec.toNat_setWidth, length_lowByte_toNat, length_highBit_toNat]; omega

/-! ### What the host reads -/

/-- A reserved address reads 0x00 (R47). -/
theorem hostReadByte_reserved (a : Addr) (s : State) (h : locAt a = none) : hostReadByte a s = 0x00#8 := by
  rw [hostReadByte, h]

/-- The byte read does not depend on the events still to come. -/
theorem hostReadByte_advance (a : Addr) (s : State) (rest : List Event) :
    hostReadByte a (s.advance rest) = hostReadByte a { s with draws := s.draws + 1 } := rfl

theorem step_read (s : State) (a : Addr) (rest : List Event) (h : s.inputs = .host (.read a) :: rest) :
    step s = .next { s with
      inputs := rest, draws := s.draws + 1,
      reads := s.reads ++ [(a, hostReadByte a { s with draws := s.draws + 1 })] } := by
  rw [step_cons s _ rest h, ← hostReadByte_advance a s rest]
  rfl

/-- Settles O15, by what a host read does as one step (`step_read`). -/
theorem hostReadsHaveNoSideEffects : Obligations.HostReadsHaveNoSideEffects :=
  fun s a rest h => ⟨_, _, step_read s a rest h, rfl, rfl, rfl⟩

/-- Settles O16: the registers byte by byte, then the buffers, then the reserved ranges. -/
theorem hostReadValues : Obligations.HostReadValues := by
  intro s
  refine ⟨rfl, rfl, rfl, rfl, rfl, ?_, lowByte_add_highByte s.arg, lowByte_add_highByte s.res,
    lowByte_add_highByte s.consumed, lengthBytes_toNat s.ibufLen, lengthBytes_toNat s.obufLen, ?_, ?_⟩
  · exact BitVec.toNat_setWidth_of_le (by decide)
  · intro a v ha hv
    rw [hostReadByte_buffer a s (by rw [isBufferAddr_iff]; omega), bufByte_of_find s _ v hv]
  · intro a ha
    exact hostReadByte_reserved a s ((locAt_eq_none_iff a).mpr ha)

/-! ### A host write as one step -/

theorem hostWrite_reserved (a : Addr) (v : Byte) (s : State) (h : locAt a = none) : hostWrite a v s = .next s := by
  simp [hostWrite, h]

/-- Settles O17: no location stands at a reserved address. -/
theorem reservedAddressesAreInert : Obligations.ReservedAddressesAreInert := by
  intro s a rest ha
  have hnone : locAt a = none := (locAt_eq_none_iff a).mpr ha
  refine ⟨fun hin => ?_, fun v hin => ?_⟩
  · rw [step_read s a rest hin, hostReadByte_reserved a _ hnone]
  · rw [step_cons s _ rest hin]
    exact hostWrite_reserved a v _ hnone

/-- Settles O11: 0x001 is the only address of STATUS, and what a write there does holds busy or not. -/
theorem busyIgnoresHostWrites : Obligations.BusyIgnoresHostWrites := by
  intro s a rest hbusy
  refine ⟨fun v ha hin => ?_, fun v ha hin => ?_, step_read s a rest⟩
  · rw [step_cons s _ rest hin]
    exact hostWrite_busy a v (s.advance rest) hbusy fun hloc => ha (locAddr_of_locAt a .status hloc).symm
  · rw [ha] at hin
    obtain ⟨t, hstep, hsticky, hbits, ht⟩ := statusWriteOnlyClearsSticky s v rest hin
    refine ⟨t, hstep, hsticky, ht, fun k hk => ?_⟩
    by_cases hk8 : k < 8
    · exact hbits k hk8 hk
    · rw [BitVec.getLsbD_of_ge _ _ (by omega), BitVec.getLsbD_of_ge _ _ (by omega)]

/-- While the codec is idle, a host write to any location but OP and STATUS stores there and does nothing else. -/
theorem step_store (s : State) (a : Addr) (v : Byte) (rest : List Event) (l : Loc)
    (h : IdleBefore (.host (.write a v)) rest s) (ha : locAt a = some l) (hop : l ≠ .op) (hst : l ≠ .status) :
    step s = .next (storeLoc l v (s.advance rest)) := by
  obtain ⟨hin, hidle⟩ := h
  rw [step_cons s _ rest hin]
  exact hostWrite_store a v (s.advance rest) l hidle ha hop hst

/-- The locations whose every host write is ignored (R50). -/
def readOnlyLoc : Loc → Bool
  | .resLo | .resHi | .consumedLo | .consumedHi | .obufLenLo | .obufLenHi | .obuf _ => true
  | _ => false

theorem storeLoc_readOnly (l : Loc) (v : Byte) (s : State) (h : readOnlyLoc l = true) : storeLoc l v s = s := by
  cases l with
  | resLo | resHi | consumedLo | consumedHi | obufLenLo | obufLenHi | obuf => rfl
  | _ => cases h

/-- The read-only addresses of R50. -/
theorem locAt_readOnly (a : Addr) (h : (0x008 ≤ a.toNat ∧ a.toNat ≤ 0x00B) ∨ a.toNat = 0x00E ∨ a.toNat = 0x00F ∨
    (0x400 ≤ a.toNat ∧ a.toNat ≤ 0x503)) : ∃ l, locAt a = some l ∧ readOnlyLoc l = true := by
  by_cases hbuf : 0x400 ≤ a.toNat
  · rw [locAt_buffer a (by omega), if_neg (by omega), if_neg (by omega), if_pos (by omega)]
    exact ⟨_, rfl, rfl⟩
  · have hreg : a = 0x008#11 ∨ a = 0x009#11 ∨ a = 0x00A#11 ∨ a = 0x00B#11 ∨ a = 0x00E#11 ∨ a = 0x00F#11 := by bv_omega
    rcases hreg with rfl | rfl | rfl | rfl | rfl | rfl <;> exact ⟨_, rfl, rfl⟩

/-- A cell of PAYLOAD or IBUF, the two buffers the host writes, takes the byte at its own address (R33, R34, R46). -/
theorem storeLoc_cell (a : Addr) (v : Byte) (h : (0x100 ≤ a.toNat ∧ a.toNat ≤ 0x1F9) ∨
    (0x200 ≤ a.toNat ∧ a.toNat ≤ 0x2FF)) : ∃ l, locAt a = some l ∧ l ≠ .op ∧ l ≠ .status ∧
      ∀ s, storeLoc l v s = { s with mem := s.mem.put a.toNat v } := by
  rw [locAt_buffer a (by omega)]
  rcases h with h | h
  · rw [if_pos (by omega)]
    refine ⟨_, rfl, nofun, nofun, fun s => ?_⟩
    rw [storeLoc, Config.payloadBase, Nat.add_sub_cancel' h.1]
  · rw [if_neg (by omega), if_pos (by omega)]
    refine ⟨_, rfl, nofun, nofun, fun s => ?_⟩
    rw [storeLoc, Config.ibufBase, Nat.add_sub_cancel' h.1]

/-- One byte written is the storing of a one-byte sequence. -/
theorem stored_put (m : Memory) (a : Nat) (v : Byte) : Stored a [v] m (m.put a v) := Memory.find_putBytes m a [v]

/-- A write to the lower half of IBUF_LEN (R52). -/
theorem step_ibufLenLo (s : State) (v : Byte) (rest : List Event)
    (h : IdleBefore (.host (.write 0x00C#11 v)) rest s) :
    ∃ t, step s = .next t ∧ t.ibufLen.toNat = min (s.ibufLen.toNat / 256 * 256 + v.toNat) 256 ∧
      t = { s with inputs := rest, draws := s.draws + 1, ibufLen := t.ibufLen } := by
  refine ⟨_, step_store s _ v rest .ibufLenLo h rfl nofun nofun, ?_, rfl⟩
  rw [storeLoc, clampIbufLen_toNat, length_highBit_toNat, State.advance_ibufLen]

/-- A write to the upper half of IBUF_LEN, of which bit 0 is stored (R50, R52). -/
theorem step_ibufLenHi (s : State) (v : Byte) (rest : List Event)
    (h : IdleBefore (.host (.write 0x00D#11 v)) rest s) :
    ∃ t, step s = .next t ∧ t.ibufLen.toNat = min (v.toNat % 2 * 256 + s.ibufLen.toNat % 256) 256 ∧
      t = { s with inputs := rest, draws := s.draws + 1, ibufLen := t.ibufLen } := by
  refine ⟨_, step_store s _ v rest .ibufLenHi h rfl nofun nofun, ?_, rfl⟩
  rw [storeLoc, clampIbufLen_toNat, bit0_toNat, length_lowByte_toNat, State.advance_ibufLen]

/-- Settles O20, half by half. -/
theorem ibufLenWritesClamp : Obligations.IbufLenWritesClamp :=
  fun s v rest => ⟨step_ibufLenLo s v rest, step_ibufLenHi s v rest⟩

/-- Settles O18: a read-only location stores nothing, and of VARIANT and 0x00D only bit 0 is stored. -/
theorem readOnlyAndReservedBitsIgnored : Obligations.ReadOnlyAndReservedBitsIgnored := by
  intro s a v rest h
  refine ⟨fun ha => ?_, fun ha => ?_, fun ha => step_ibufLenHi s v rest (ha ▸ h)⟩
  · obtain ⟨l, hl, hro⟩ := locAt_readOnly a ha
    rw [step_store s a v rest l h hl (by rintro rfl; cases hro) (by rintro rfl; cases hro),
      storeLoc_readOnly l v _ hro]
    rfl
  · subst ha
    exact ⟨_, step_store s _ v rest .variant h rfl nofun nofun, bit0_toNat v, rfl⟩

/-- Settles O19, register by register, then the cells of the two buffers. -/
theorem hostWritesStore : Obligations.HostWritesStore := by
  intro s a v rest h
  refine ⟨fun ha => ?_, fun ha => ?_, fun ha => ?_, fun ha => ?_, fun ha => ?_, fun ha => ?_⟩
  · subst ha; exact step_store s _ v rest .cmd0 h rfl nofun nofun
  · subst ha; exact step_store s _ v rest .cmd1 h rfl nofun nofun
  · subst ha; exact step_store s _ v rest .len h rfl nofun nofun
  · subst ha
    refine ⟨_, step_store s _ v rest .argLo h rfl nofun nofun, ?_, rfl⟩
    rw [storeLoc, wordOf_toNat, highByte_toNat, State.advance_arg]
  · subst ha
    refine ⟨_, step_store s _ v rest .argHi h rfl nofun nofun, ?_, rfl⟩
    rw [storeLoc, wordOf_toNat, lowByte_toNat, State.advance_arg]
  · obtain ⟨l, hl, hop, hst, hstore⟩ := storeLoc_cell a v ha
    refine ⟨_, step_store s a v rest l h hl hop hst, ?_, ?_⟩
    · rw [hstore]
      exact stored_put s.mem a.toNat v
    · rw [hstore]
      rfl

/-! ### What an operation reads

The two runs of R60 start from `s` and from `{ s with mem := m }`; they agree on the operation's input. -/

/-- The memory m holds the input an operation may read as s does: IBUF[0..IBUF_LEN) and PAYLOAD[0..LEN) (R60). -/
structure SameInput (s : State) (m : Memory) : Prop where
  ibuf : ∀ k, k < s.ibufLen.toNat → State.ibufByte { s with mem := m } k = s.ibufByte k
  payload : ∀ k, k < s.len.toNat → State.payloadByte { s with mem := m } k = s.payloadByte k

namespace SameInput

variable {s : State} {m : Memory}

theorem ibufSlice (h : SameInput s m) {i n : Nat} (hn : i + n ≤ s.ibufLen.toNat) :
    State.ibufSlice { s with mem := m } i n = s.ibufSlice i n :=
  List.map_congr_left fun k hk => h.ibuf (i + k) (by rw [List.mem_range] at hk; omega)

theorem inputBytes (h : SameInput s m) : State.inputBytes { s with mem := m } = s.inputBytes :=
  h.ibufSlice (Nat.zero_add _).le

theorem frameBytes (h : SameInput s m) : State.frameBytes { s with mem := m } = s.frameBytes :=
  congrArg (s.headerBytes ++ ·) (List.map_congr_left fun k hk => h.payload k (List.mem_range.mp hk))

/-- The FCS covers IBUF[1..4+N), which a complete envelope holds (R76, R114). -/
theorem inputFcs (h : SameInput s m) (hn : 5 + (s.ibufByte 1).toNat ≤ s.ibufLen.toNat) :
    State.inputFcs { s with mem := m } = s.inputFcs := by
  rw [State.inputFcs, State.inputFcs, h.ibuf 1 (by omega), h.ibufSlice (by omega)]

end SameInput

/-- The answers t from s and u from `{ s with mem := m }` differ in memory alone, and there each byte ends as it was in
both runs or the same in both. -/
structure AgreeOffMemory (s : State) (m : Memory) (t u : State) : Prop where
  registers : u = { t with mem := u.mem }
  memory : ∀ a, (t.mem.find a = s.mem.find a ∧ u.mem.find a = m.find a) ∨ u.mem.find a = t.mem.find a

/-- Two answers that `AgreeOffMemory` relates. -/
def SameAnswer (s : State) (m : Memory) (x y : Answer) : Prop :=
  ∃ t u, x = .next t ∧ y = .next u ∧ AgreeOffMemory s m t u

section

variable {s t u : State} {m : Memory}

/-- The two runs write no buffer byte. -/
theorem AgreeOffMemory.of_kept (hreg : u = { t with mem := m }) (hmem : t.mem = s.mem) : AgreeOffMemory s m t u := by
  subst hreg
  exact ⟨rfl, fun a => .inl ⟨by rw [hmem], rfl⟩⟩

/-- The two runs write the same bytes at the same place. -/
theorem AgreeOffMemory.of_stored (a : Nat) (bs : List Byte) (hreg : u = { t with mem := m.putBytes a bs })
    (hmem : t.mem = s.mem.putBytes a bs) : AgreeOffMemory s m t u := by
  subst hreg
  refine ⟨rfl, fun x => ?_⟩
  rw [hmem]
  simp only [Memory.find_putBytes]
  split
  · exact .inr rfl
  · exact .inl ⟨rfl, rfl⟩

theorem commit_same (h : AgreeOffMemory s m t u) : SameAnswer s m (commit t) (commit u) := by
  obtain ⟨hreg, hmem⟩ := h
  refine ⟨_, _, rfl, rfl, ?_, hmem⟩
  rw [hreg]

theorem raise_same (k : ErrorKind) : SameAnswer s m (raise k s) (raise k { s with mem := m }) :=
  ⟨_, _, rfl, rfl, .of_kept rfl rfl⟩

/-- A commit that writes no buffer byte. -/
theorem commit_registers (hreg : u = { t with mem := m }) (hmem : t.mem = s.mem) :
    SameAnswer s m (commit t) (commit u) :=
  commit_same (.of_kept hreg hmem)

/-- A commit that emits the same bytes in both runs. -/
theorem commit_output {bs cs : List Byte} (h : cs = bs) :
    SameAnswer s m (commit (s.writeOut bs)) (commit (State.writeOut { s with mem := m } cs)) := by
  subst h
  exact commit_same (.of_stored Config.obufBase cs rfl rfl)

/-- A check that the two runs decide alike. -/
theorem ite_same {p q : Prop} [Decidable p] [Decidable q] {x x' y y' : Answer} (hpq : q ↔ p)
    (hx : p → SameAnswer s m x x') (hy : ¬ p → SameAnswer s m y y') :
    SameAnswer s m (if p then x else y) (if q then x' else y') := by
  by_cases hp : p
  · rw [if_pos hp, if_pos (hpq.mpr hp)]
    exact hx hp
  · rw [if_neg hp, if_neg (mt hpq.mp hp)]
    exact hy hp

end

/-! Each decoder reads only input bytes that its checks so far have found to be there. -/

section

variable {s : State} {m : Memory}

theorem cwFromBytes_same (h : SameInput s m) :
    SameAnswer s m (execCwFromBytes s) (execCwFromBytes { s with mem := m }) := by
  refine ite_same Iff.rfl (fun _ => raise_same _) fun hlen => commit_registers ?_ rfl
  simp only [h.ibuf 0 (by omega), h.ibuf 1 (by omega)]

theorem hdrFromBytes_same (h : SameInput s m) :
    SameAnswer s m (execHdrFromBytes s) (execHdrFromBytes { s with mem := m }) := by
  refine ite_same Iff.rfl (fun _ => raise_same _) fun hlen => ?_
  have h0 := h.ibuf 0 (by omega)
  refine ite_same (by rw [h0]) (fun _ => raise_same _) fun _ => commit_registers ?_ rfl
  simp only [State.decodedHeader, h0, h.ibuf 1 (by omega), h.ibuf 2 (by omega)]

theorem frameFromBytes_same (h : SameInput s m) :
    SameAnswer s m (execFrameFromBytes s) (execFrameFromBytes { s with mem := m }) := by
  refine ite_same Iff.rfl (fun _ => raise_same _) fun hlen => ?_
  have h0 := h.ibuf 0 (by omega)
  refine ite_same (by rw [h0]) (fun _ => raise_same _) fun _ => ?_
  refine ite_same (by rw [h0]) (fun _ => raise_same _) fun hfull => commit_same ?_
  refine .of_stored Config.payloadBase (s.ibufSlice 3 (s.ibufByte 0).toNat) ?_ rfl
  simp only [State.decodedFrame, State.writePayload, h0, h.ibuf 1 (by omega), h.ibuf 2 (by omega),
    h.ibufSlice (i := 3) (n := (s.ibufByte 0).toNat) (by omega)]

theorem envFromBytes_same (h : SameInput s m) :
    SameAnswer s m (execEnvFromBytes s) (execEnvFromBytes { s with mem := m }) := by
  have hstart : (s.ibufLen.toNat < 1 ∨ State.ibufByte { s with mem := m } 0 ≠ Config.sof) ↔
      (s.ibufLen.toNat < 1 ∨ s.ibufByte 0 ≠ Config.sof) :=
    or_congr_right' fun hlen => by rw [h.ibuf 0 (by omega)]
  refine ite_same hstart (fun _ => raise_same _) fun _ => ?_
  refine ite_same Iff.rfl (fun _ => raise_same _) fun hlen => ?_
  have h1 := h.ibuf 1 (by omega)
  refine ite_same (by rw [h1]) (fun _ => raise_same _) fun hfull => ?_
  have hfcs := h.inputFcs (by omega)
  refine ite_same (by rw [h1, hfcs, h.ibuf _ (by omega)]) (fun _ => raise_same _) fun _ => ?_
  refine ite_same (by rw [h1]) (fun _ => raise_same _) fun _ => commit_same ?_
  refine .of_stored Config.payloadBase (s.ibufSlice 4 (s.ibufByte 1).toNat) ?_ rfl
  simp only [State.decodedEnvelope, State.writePayload, h1, hfcs, h.ibuf 2 (by omega), h.ibuf 3 (by omega),
    h.ibufSlice (i := 4) (n := (s.ibufByte 1).toNat) (by omega)]

theorem linkMakeCtrl_same (h : SameInput s m) :
    SameAnswer s m (execLinkMakeCtrl s) (execLinkMakeCtrl { s with mem := m }) := by
  refine commit_same (.of_stored Config.obufBase (ctrlFrame s.argByte s.inputBytes) ?_ rfl)
  rw [h.inputBytes]
  rfl

/-- No operation reads a buffer byte outside its input (R60). -/
theorem exec_same (i : Instr) (h : SameInput s m) : SameAnswer s m (exec i s) (exec i { s with mem := m }) := by
  cases i with
  | nop | cwFromU16 | cwSubsystem | cwType | cwName | linkParseCtrl => exact commit_registers rfl rfl
  | linkSendAck => exact ⟨_, _, rfl, rfl, .of_kept rfl rfl⟩
  | cwSerialize | hdrSerialize => exact commit_output rfl
  | cwFromBytes => exact cwFromBytes_same h
  | hdrFromBytes => exact hdrFromBytes_same h
  | frameFromBytes => exact frameFromBytes_same h
  | frameSerialize =>
    exact ite_same Iff.rfl (fun _ => raise_same _) fun _ => commit_output h.frameBytes
  | checksum =>
    refine commit_registers ?_ rfl
    rw [h.inputBytes]
  | envFromBytes => exact envFromBytes_same h
  | envSerialize =>
    exact ite_same Iff.rfl (fun _ => raise_same _) fun _ => ite_same Iff.rfl (fun _ => raise_same _) fun _ =>
      commit_output (congrArg envelopeBytes h.frameBytes)
  | envCommand => exact ite_same Iff.rfl (fun _ => raise_same _) fun _ => commit_registers rfl rfl
  | linkMakeCtrl => exact linkMakeCtrl_same h

end

/-- Settles O33: the second state is the first with another memory, and `exec_same` compares their answers. -/
theorem operationsReadOnlyTheirInput : Obligations.OperationsReadOnlyTheirInput := by
  intro i s r t u hr hibuf hpayload ht hu
  obtain ⟨m, rfl⟩ : ∃ m, r = { s with mem := m } := ⟨r.mem, hr⟩
  obtain ⟨t', u', ht', hu', hreg, hmem⟩ := exec_same i ⟨hibuf, hpayload⟩
  cases ht'.symm.trans ht
  cases hu'.symm.trans hu
  exact ⟨hreg, hmem⟩

end Sys2Proof.Machine

/-! ## Encoding: operation codes and the lines of a host program

First which bytes decode to what, then what a run over a list of host accesses does; each obligation of
spec/30_encoding.md stands after the facts it is assembled from. -/

namespace Sys2Proof.Machine

/-! ### Operation codes -/

theorem decode_encode (i : Instr) : decode (encode i) = .ok i := by cases i <;> rfl

/-- The only complaint of the decoder is about the byte it was given (R65). -/
theorem decode_error_eq (v : Byte) (e : DecodeError) (h : decode v = .error e) : e = .illegalOperation v := by
  unfold decode at h
  split at h
  case h_19 => cases h; rfl
  all_goals cases h

/-- The decoder turns away exactly the bytes that are the code of no operation. -/
theorem decode_error_iff (v : Byte) : decode v = .error (.illegalOperation v) ↔ ∀ i, encode i ≠ v := by
  constructor
  · rintro h i rfl
    rw [decode_encode] at h
    cases h
  · intro h
    cases hv : decode v with
    | ok i => exact absurd (encode_of_decode v i hv) (h i)
    | error e => rw [decode_error_eq v e hv]

/-- The 238 bytes that are the code of no operation (R65). -/
theorem encode_ne_iff (v : Byte) : (∀ i, encode i ≠ v) ↔
    ((0x01 ≤ v.toNat ∧ v.toNat ≤ 0x0F) ∨ (0x16 ≤ v.toNat ∧ v.toNat ≤ 0x1F) ∨ (0x24 ≤ v.toNat ∧ v.toNat ≤ 0x2F) ∨
      (0x34 ≤ v.toNat ∧ v.toNat ≤ 0x3F) ∨ 0x43 ≤ v.toNat) := by
  constructor
  · intro hne
    by_contra hlegal
    have hcode : v = encode .nop ∨
        (v = encode .cwFromU16 ∨ v = encode .cwFromBytes ∨ v = encode .cwSubsystem ∨ v = encode .cwType ∨
          v = encode .cwName ∨ v = encode .cwSerialize) ∨
        (v = encode .hdrFromBytes ∨ v = encode .hdrSerialize ∨ v = encode .frameFromBytes ∨
          v = encode .frameSerialize) ∨
        (v = encode .checksum ∨ v = encode .envFromBytes ∨ v = encode .envSerialize ∨ v = encode .envCommand) ∨
        (v = encode .linkMakeCtrl ∨ v = encode .linkSendAck ∨ v = encode .linkParseCtrl) := by
      simp only [encode]
      bv_omega
    rcases hcode with h | (h | h | h | h | h | h) | (h | h | h | h) | (h | h | h | h) | (h | h | h) <;>
      exact hne _ h.symm
  · rintro hv i rfl
    revert hv
    cases i <;> decide

/-- Settles O2: the two directions are inverse to each other, and what is left over is R65's ranges. -/
theorem decodeEncodeAgree : Obligations.DecodeEncodeAgree :=
  ⟨fun i _ => decode_encode i, encode_of_decode, fun v => (decode_error_iff v).trans (encode_ne_iff v)⟩

/-- Settles O1: each code is `encode` of its operation, so `decode_encode` reads it back. -/
theorem operationCodesDecode : Obligations.OperationCodesDecode :=
  ⟨⟨decode_encode .nop, rfl⟩, ⟨decode_encode .cwFromU16, rfl⟩, ⟨decode_encode .cwFromBytes, rfl⟩,
    ⟨decode_encode .cwSubsystem, rfl⟩, ⟨decode_encode .cwType, rfl⟩, ⟨decode_encode .cwName, rfl⟩,
    ⟨decode_encode .cwSerialize, rfl⟩, ⟨decode_encode .hdrFromBytes, rfl⟩, ⟨decode_encode .hdrSerialize, rfl⟩,
    ⟨decode_encode .frameFromBytes, rfl⟩, ⟨decode_encode .frameSerialize, rfl⟩, ⟨decode_encode .checksum, rfl⟩,
    ⟨decode_encode .envFromBytes, rfl⟩, ⟨decode_encode .envSerialize, rfl⟩, ⟨decode_encode .envCommand, rfl⟩,
    ⟨decode_encode .linkMakeCtrl, rfl⟩, ⟨decode_encode .linkSendAck, rfl⟩, ⟨decode_encode .linkParseCtrl, rfl⟩⟩

/-! ### The lines of a host program -/

/-- A run cut in two at a state it passes through. -/
theorem runSteps_add (m n : Nat) (s u : State) (h : runSteps m s = .next u) :
    runSteps (m + n) s = runSteps n u := by
  induction m generalizing s with
  | zero =>
    cases h
    rw [Nat.zero_add]
  | succ m ih =>
    obtain ⟨v, hv, hrun⟩ := runSteps_succ_cases m s u h
    rw [Nat.succ_add, runSteps_succ _ s v hv]
    exact ih v hrun

/-- A host write to a cell of IBUF while the codec is idle (R34). -/
theorem step_ibufCell (s : State) (i : Nat) (v : Byte) (rest : List Event) (hi : i < 256)
    (h : IdleBefore (.host (.write (locAddr (.ibuf i)) v)) rest s) :
    step s = .next { s with inputs := rest, draws := s.draws + 1, mem := s.mem.put (0x200 + i) v } :=
  step_store s _ v rest (.ibuf i) h (locAt_locAddr _ ((wellFormed_ibuf i).mpr hi)) nofun nofun

/-- Writes to consecutive cells of IBUF, one step each (R83). -/
theorem runSteps_ibufCells (s : State) (i : Nat) (bs : List Byte) (rest : List Event) (hi : i + bs.length ≤ 256)
    (hidle : Status.busy s.status = false) (hin : s.inputs = (writeCells .ibuf i bs).map Event.host ++ rest) :
    runSteps bs.length s =
      .next { s with inputs := rest, draws := s.draws + bs.length, mem := s.mem.putBytes (0x200 + i) bs } := by
  induction bs generalizing s i with
  | nil =>
    cases hin
    rfl
  | cons b bs ih =>
    rw [List.length_cons] at hi
    have hfirst := step_ibufCell s i b _ (by omega) ⟨hin, hidle⟩
    rw [List.length_cons, runSteps_succ _ s _ hfirst, ih _ (i + 1) (by omega) ?_ ?_, Memory.putBytes_cons,
      Nat.add_assoc s.draws, Nat.add_comm 1]
    · rfl
    · exact hidle
    · rfl

/-- The two bytes of a 9-bit length, the upper one first, set IBUF_LEN whatever it was (R52, R149). -/
theorem runSteps_ibufLen (s : State) (n : Nat) (rest : List Event) (hn : n < 512)
    (h : IdleBefore (.host (.write 0x00D#11 (BitVec.ofNat 8 (n / 256))))
      (.host (.write 0x00C#11 (BitVec.ofNat 8 (n % 256))) :: rest) s) :
    ∃ t, runSteps 2 s = .next t ∧ t.ibufLen.toNat = min n 256 ∧
      t = { s with inputs := rest, draws := s.draws + 2, ibufLen := t.ibufLen } := by
  obtain ⟨u, hu, hlen, hs⟩ := step_ibufLenHi s _ _ h
  obtain ⟨t, ht, htlen, hut⟩ := step_ibufLenLo u _ rest ⟨by rw [hs], by rw [hs]; exact h.2⟩
  refine ⟨t, ?_, ?_, ?_⟩
  · rw [runSteps_succ 1 s u hu, runSteps_succ 0 u t ht, runSteps_zero]
  · rw [htlen, hlen, BitVec.toNat_ofNat, BitVec.toNat_ofNat]
    omega
  · rw [hut, hs]

/-- The accesses of an `ibuf` line: the cells in order, then the upper and the lower byte of their number (R83, R149). -/
theorem assemble_ibuf (bs : List Byte) (rest : List Event) :
    (assemble [.ibuf bs]).map Event.host ++ rest = (writeCells .ibuf 0 bs).map Event.host ++
      .host (.write 0x00D#11 (BitVec.ofNat 8 (bs.length / 256))) ::
        .host (.write 0x00C#11 (BitVec.ofNat 8 (bs.length % 256))) :: rest := by
  simp [assemble, expandLine, locAddr]

/-- Settles O24: the bytes first (`runSteps_ibufCells`), then the two halves of their number (`runSteps_ibufLen`). -/
theorem ibufLineLoadsBuffer : Obligations.IbufLineLoadsBuffer := by
  intro s bs rest hwf hidle hin
  have hlen : bs.length ≤ 256 := of_decide_eq_true hwf
  rw [assemble_ibuf] at hin
  have hcells := runSteps_ibufCells s 0 bs _ (by omega) hidle hin
  obtain ⟨t, ht, htlen, hframe⟩ := runSteps_ibufLen
    { s with inputs := _, draws := s.draws + bs.length, mem := s.mem.putBytes 0x200 bs }
    bs.length rest (by omega) ⟨rfl, hidle⟩
  have hmem : t.mem = s.mem.putBytes 0x200 bs := by rw [hframe]
  refine ⟨t, (runSteps_add _ 2 s _ hcells).trans ht, by omega, ?_, ?_⟩
  · rw [hmem]
    exact Memory.find_putBytes s.mem 0x200 bs
  · rw [hmem]
    exact hframe

/-- A host read at `a` is no draw: what else the host has done or read, and when, makes no difference (R43, R48). -/
def ReadSettled (s : State) (a : Addr) : Prop :=
  ∀ inputs reads draws, hostReadByte a { s with inputs, reads, draws } = hostReadByte a s

/-- What the reads of these addresses give, in order, in a state in which they are settled. -/
def State.readAll (s : State) (as : List Addr) : List (Addr × Byte) := as.map fun a => (a, hostReadByte a s)

theorem State.readAll_cons (s : State) (a : Addr) (as : List Addr) :
    s.readAll (a :: as) = (a, hostReadByte a s) :: s.readAll as := rfl

theorem readAll_of_settled (s : State) (as : List Addr) (h : ∀ a ∈ as, ReadSettled s a) (inputs : List Event)
    (reads : List (Addr × Byte)) (draws : Nat) :
    State.readAll { s with inputs, reads, draws } as = s.readAll as :=
  List.map_congr_left fun a ha => congrArg (Prod.mk a) (h a ha inputs reads draws)

/-- Host reads of settled addresses, one step each, change no state of the codec (R48). -/
theorem runSteps_reads (s : State) (as : List Addr) (rest : List Event) (h : ∀ a ∈ as, ReadSettled s a)
    (hin : s.inputs = as.map (fun a => .host (.read a)) ++ rest) :
    runSteps as.length s =
      .next { s with inputs := rest, draws := s.draws + as.length, reads := s.reads ++ s.readAll as } := by
  induction as generalizing s with
  | nil =>
    cases hin
    rw [State.readAll, List.map_nil, List.append_nil]
    rfl
  | cons a as ih =>
    rw [List.forall_mem_cons] at h
    obtain ⟨ha, has⟩ := h
    have hfirst := step_read s a _ hin
    have hbyte : hostReadByte a { s with draws := s.draws + 1 } = hostReadByte a s := ha _ _ _
    rw [hbyte] at hfirst
    rw [List.length_cons, runSteps_succ _ s _ hfirst, ih _ ?_ ?_, readAll_of_settled s as has, State.readAll_cons,
      List.append_assoc, Nat.add_assoc s.draws, Nat.add_comm 1]
    · rfl
    · exact fun b hb inputs reads draws => (has b hb inputs reads draws).trans (has b hb _ _ _).symm
    · rfl

/-- The host reads a written buffer byte as it was written. -/
theorem hostReadByte_written (s : State) (a : Addr) (v : Byte) (ha : isBufferAddr a.toNat = true)
    (hv : s.mem.find a.toNat = some v) : hostReadByte a s = v := by
  rw [hostReadByte_buffer a s ha, bufByte_of_find s _ v hv]

theorem readSettled_written (s : State) (a : Addr) (v : Byte) (ha : isBufferAddr a.toNat = true)
    (hv : s.mem.find a.toNat = some v) : ReadSettled s a := fun inputs reads draws =>
  (hostReadByte_written { s with inputs, reads, draws } a v ha hv).trans (hostReadByte_written s a v ha hv).symm

/-- Each byte of the last output has been written, and the host reads it so (R35, R152). -/
theorem State.Inv.read_output {s : State} (h : s.Inv) (k : Nat) (hk : k < s.obufLen.toNat) :
    ∃ v, s.mem.find (0x400 + k) = some v ∧ hostReadByte (locAddr (.obuf k)) s = v ∧
      ReadSettled s (locAddr (.obuf k)) := by
  obtain ⟨v, hv⟩ := Option.isSome_iff_exists.mp (h.output_written k hk)
  have hlt : k < 260 := Nat.lt_of_lt_of_le hk h.obufLen_le
  have haddr : (locAddr (.obuf k)).toNat = Config.obufBase + k := locAddr_obuf k hlt
  have hbuf : isBufferAddr (locAddr (.obuf k)).toNat = true := haddr ▸ isBufferAddr_obuf k hlt
  rw [← haddr] at hv
  exact ⟨v, haddr ▸ hv, hostReadByte_written s _ v hbuf hv, readSettled_written s _ v hbuf hv⟩

/-- The addresses a `rdobuf` line reads, when OBUF_LEN is n (R83). -/
def rdobufAddrs (n : Nat) : List Addr :=
  locAddr .obufLenLo :: locAddr .obufLenHi :: (List.range n).map fun k => locAddr (.obuf k)

theorem rdobufAddrs_length (n : Nat) : (rdobufAddrs n).length = n + 2 := by simp [rdobufAddrs]

theorem assemble_rdobuf (n : Nat) :
    (assemble [.rdobuf n]).map Event.host = (rdobufAddrs n).map fun a => .host (.read a) := by
  simp [assemble, expandLine, readWide, wideRegLocs, rdobufAddrs]

/-- After its two reads of OBUF_LEN, the k-th read of the line is of OBUF[k]. -/
theorem readAll_rdobuf_getElem (s : State) {n k : Nat} (hk : k < n) :
    (s.readAll (rdobufAddrs n))[k + 2]? = some (locAddr (.obuf k), hostReadByte (locAddr (.obuf k)) s) := by
  simp [State.readAll, rdobufAddrs, hk]

theorem State.Inv.rdobuf_settled {s : State} (h : s.Inv) : ∀ a ∈ rdobufAddrs s.obufLen.toNat, ReadSettled s a := by
  simp only [rdobufAddrs, List.forall_mem_cons, List.forall_mem_map, List.mem_range]
  refine ⟨fun _ _ _ => rfl, fun _ _ _ => rfl, fun k hk => ?_⟩
  obtain ⟨_, _, _, hset⟩ := h.read_output k hk
  exact hset

/-- The host that takes bit 0 of the upper byte has all of a 9-bit length (R22). -/
theorem lengthBytes_bit0_toNat (n : BitVec 9) :
    (n.extractLsb' 0 8).toNat + 256 * (((n.extractLsb' 8 1).setWidth 8).extractLsb' 0 1).toNat = n.toNat := by
  rw [bit0_toNat, BitVec.toNat_setWidth, length_lowByte_toNat, length_highBit_toNat]; omega

/-- Settles O25: the two registers and the bytes of the output are settled, so each read is answered as in `s`. -/
theorem rdobufReturnsOutput : Obligations.RdobufReturnsOutput := by
  rintro s n rest hinv rfl hin
  have hrun := runSteps_reads s _ rest hinv.rdobuf_settled (hin.trans (by rw [assemble_rdobuf]))
  rw [rdobufAddrs_length] at hrun
  refine ⟨_, s.readAll (rdobufAddrs s.obufLen.toNat), hrun, rfl, ?_, ?_, fun k hk => ?_, rfl⟩
  · rw [State.readAll, List.length_map, rdobufAddrs_length]
  · exact beq_iff_eq.mpr (lengthBytes_bit0_toNat s.obufLen)
  · obtain ⟨v, hv, hread, -⟩ := hinv.read_output k hk
    refine ⟨v, hv, ?_⟩
    rw [readAll_rdobuf_getElem s hk, hread]
    rfl

end Sys2Proof.Machine

/-! ## Control: issuing an operation, and the operation that is held

First a host write to OP as one step, then NOP and the illegal codes, then what a held LINK_SEND_ACK keeps while the host
accesses the codec; each obligation of spec/40_control.md stands after the facts it is assembled from. -/

namespace Sys2Proof.Machine

/-! ### The issue of a code -/

/-- While the codec is idle, a host write to OP issues the code written (R87). -/
theorem step_issue (s : State) (v : Byte) (rest : List Event) (h : IdleBefore (.host (.write 0x000#11 v)) rest s) :
    step s = issue v (s.advance rest) := by
  obtain ⟨hin, hidle⟩ := h
  have hbusy : ¬ Status.busy (s.advance rest).status = true := Bool.eq_false_iff.mp hidle
  rw [step_cons s _ rest hin]
  exact if_neg hbusy

theorem issue_defined (v : Byte) (i : Instr) (s : State) (h : decode v = .ok i) :
    issue v s = exec i (s.beginIssue v) := by simp [issue, h]

theorem issue_illegal (v : Byte) (s : State) (h : decode v = .error (.illegalOperation v)) :
    issue v s = raise .illegalOperation (s.beginIssue v) := by simp [issue, h, illegalOperation]

/-- Settles O4: the step issues the code, and a defined code runs its operation. -/
theorem stepRunsDecodedOperation : Obligations.StepRunsDecodedOperation := by
  intro s v i rest hin hidle hdec _
  rw [step_issue s v rest ⟨hin, hidle⟩, issue_defined v i _ hdec]
  rfl

/-! ### NOP and the illegal codes -/

/-- A commit sets DONE, so it does not show that the issue cleared it first (R87, R131). -/
theorem CommitStatus.of_clearDone {old new : Byte} (h : CommitStatus (Status.clearDone old) new) :
    CommitStatus old new := by
  obtain ⟨herr, hdone, hbusy, hsticky, hreserved⟩ := h
  simp only [Status.clearDone_bits] at hbusy hsticky hreserved
  exact ⟨herr, hdone, by simpa using hbusy, by simpa using hsticky, by simpa using hreserved⟩

/-- A raise sets DONE, so it does not show that the issue cleared it first (R87, R132). -/
theorem RaiseStatus.of_clearDone {e : BitVec 4} {old new : Byte} (h : RaiseStatus e (Status.clearDone old) new) :
    RaiseStatus e old new := by
  obtain ⟨herr, hdone, hbusy, hsticky, hreserved⟩ := h
  simp only [Status.clearDone_bits] at hbusy hreserved
  exact ⟨herr, hdone, by simpa using hbusy, hsticky, by simpa using hreserved⟩

/-- Settles O26: NOP is a bare commit, of the given state and of the one its issue was accepted in. -/
theorem nopCommits : Obligations.NopCommits := by
  refine ⟨rfl, fun s => ⟨_, rfl, Status.committed_fields s.status, rfl⟩, fun s rest h => ?_⟩
  obtain ⟨hin, hidle⟩ := h
  have hrun := stepRunsDecodedOperation s 0x00#8 .nop rest hin hidle (decode_encode .nop) rfl
  exact ⟨_, hrun, rfl, (Status.committed_fields _).of_clearDone, rfl⟩

/-- Settles O27: the decoder turns the code away, and all that follows the acceptance is a raise. -/
theorem illegalCodesRaise : Obligations.IllegalCodesRaise := by
  intro s v rest h hv
  have hdec : decode v = .error (.illegalOperation v) := (decode_error_iff v).mpr ((encode_ne_iff v).mpr hv)
  have hstep := (step_issue s v rest h).trans (issue_illegal v _ hdec)
  exact ⟨_, hstep, rfl, (Status.raised_fields .illegalOperation _).of_clearDone, rfl⟩

/-! ### A held LINK_SEND_ACK -/

/-- A host access while BUSY = 1 leaves the codec busy, and all but STATUS and the record of reads as it was (R62). -/
theorem takeEvent_host_busy (x : Access) (s : State) (hb : Status.busy s.status = true) :
    ∃ t, takeEvent (.host x) s = .next t ∧ Status.busy t.status = true ∧
      t = { s with status := t.status, reads := t.reads } := by
  cases x with
  | read a => exact ⟨hostRead a s, rfl, hb, rfl⟩
  | write a v =>
    by_cases ha : locAt a = some .status
    · refine ⟨clearStatus v s, ?_, (Status.busy_hostWritten v s.status).trans hb, rfl⟩
      simp [takeEvent, hostWrite, ha]
    · exact ⟨s, hostWrite_busy a v s hb ha, hb, rfl⟩

/-- Any number of host accesses while BUSY = 1, one step each. -/
theorem runSteps_host_busy (s : State) (xs : List Access) (rest : List Event) (hb : Status.busy s.status = true)
    (hin : s.inputs = xs.map Event.host ++ rest) :
    ∃ t, runSteps xs.length s = .next t ∧
      t = { s with inputs := rest, draws := t.draws, status := t.status, reads := t.reads } := by
  induction xs generalizing s with
  | nil =>
    cases hin
    exact ⟨s, rfl, rfl⟩
  | cons x xs ih =>
    obtain ⟨u, hu, hub, hsu⟩ := takeEvent_host_busy x (s.advance (xs.map Event.host ++ rest)) hb
    obtain ⟨t, ht, hut⟩ := ih u hub (by rw [hsu]; rfl)
    refine ⟨t, ?_, ?_⟩
    · rw [List.length_cons, runSteps_succ _ s u ((step_cons s _ _ hin).trans hu), ht]
    · rw [hut, hsu]
      rfl

/-- The frame LINK_SEND_ACK builds takes bits 2:0 of ARG as its sequence number (R123, R124). -/
theorem ackFrame_argByte (s : State) :
    (ackFrame s.argByte).toList = ctrlFrame (BitVec.ofNat 8 (0x80 + s.arg.toNat % 8)) [] := by
  have hseq : s.argByte.toNat % 8 = s.arg.toNat % 8 := by rw [State.argByte, lowByte_toNat]; omega
  rw [← hseq, ← ackCtrl_eq]
  rfl

/-- The step that issues LINK_SEND_ACK: PEND takes the frame of the ARG of this step, and BUSY is set (R93, R124). -/
theorem step_sendAck (s : State) (rest : List Event) (h : IdleBefore (.host (.write 0x000#11 0x41#8)) rest s) :
    ∃ t, step s = .next t ∧ Status.busy t.status = true ∧ t.pend = some (ackFrame s.argByte) ∧
      t = { s with
        inputs := rest, draws := s.draws + 1, op := 0x41#8, pend := t.pend, status := t.status } := by
  obtain ⟨hin, hidle⟩ := h
  have hrun := stepRunsDecodedOperation s 0x41#8 .linkSendAck rest hin hidle (decode_encode .linkSendAck) rfl
  exact ⟨_, hrun, Status.busy_setBusy _, rfl, rfl⟩

/-- Settles O59: the issue puts the frame in PEND (`step_sendAck`), no host access while BUSY = 1 touches it
(`runSteps_host_busy`), and the accept step sends it. -/
theorem sendAckSendsSampledSequence : Obligations.SendAckSendsSampledSequence := by
  intro s xs rest hidle hin
  obtain ⟨held, hissue, hbusy, hframe, hheld⟩ := step_sendAck s _ ⟨hin, hidle⟩
  obtain ⟨u, hrun, hu⟩ := runSteps_host_busy held xs (.accept :: rest) hbusy (by rw [hheld])
  have hpend : u.pend = some (ackFrame s.argByte) := by rw [hu]; exact hframe
  have haccept : step u = .next (transportAccept (u.advance rest)) := step_cons u .accept rest (by rw [hu])
  have hall : runSteps (xs.length + 2) s = .next (transportAccept (u.advance rest)) := by
    rw [runSteps_succ (xs.length + 1) s held hissue, runSteps_add _ 1 held u hrun, runSteps_succ 0 u _ haccept,
      runSteps_zero]
  obtain ⟨-, hdone, hfree, -, -⟩ := Status.accepted_fields u.status
  rw [transportAccept_some (u.advance rest) _ hpend] at hall
  refine ⟨_, hall, ?_, ?_, ?_, rfl, hfree, hdone, rfl⟩
  · rw [State.advance_txlog, hu, hheld, ackFrame_argByte]
  · rw [State.writeOut_arg, State.advance_arg, hu, hheld]
  · rw [State.writeOut_op, State.advance_op, hu, hheld]

end Sys2Proof.Machine

/-! ## Command words: the codec of the two-byte command identifier

First what the answer of an operation says when the operation raises, sets RES or emits bytes, then the fields of CMD0
and the maps on them; each obligation of spec/41_command_word.md stands after the facts it is assembled from. -/

namespace Sys2Proof.Machine

/-! ### The answer of an operation whose outcome is known -/

section

variable {i : Instr} {s t : State}

/-- An operation that raises is precise (R132). -/
theorem raises_of_raise {k : ErrorKind} (h : exec i s = raise k s) : Raises i k.code s :=
  ⟨_, h, Status.raised_fields k s.status, rfl⟩

/-- An operation that commits a value to RES changes STATUS and RES only (R131). -/
theorem result_of_commit {w : Word16} {n : Nat} (h : exec i s = commit { s with res := w }) (hw : w.toNat = n) :
    ∃ t, exec i s = .next t ∧ CommitStatus s.status t.status ∧ t.res.toNat = n ∧
      t = { s with status := t.status, res := t.res } :=
  ⟨_, h, Status.committed_fields s.status, hw, rfl⟩

theorem res_of_commit {w : Word16} (h : exec i s = commit { s with res := w }) (ht : exec i s = .next t) :
    t.res = w := by
  rw [h, commit_eq] at ht
  rw [ht]

/-- An operation that commits an output emits it, if its length can stand in OBUF_LEN (R35, R131). -/
theorem emits_of_commit {bs : List Byte} (h : exec i s = commit (s.writeOut bs)) (hbs : bs.length < 512) :
    ∃ t, Emits i bs s t :=
  ⟨_, h, Status.committed_fields s.status, (BitVec.toNat_ofNat _ _).trans (Nat.mod_eq_of_lt hbs),
    Memory.find_putBytes s.mem Config.obufBase bs, rfl⟩

end

/-! ### Building and serialising a command word -/

theorem lowByte_eq_ofNat (w : Word16) : lowByte w = BitVec.ofNat 8 (w.toNat % 256) := by
  rw [← lowByte_toNat, BitVec.ofNat_toNat, BitVec.setWidth_eq]

theorem highByte_eq_ofNat (w : Word16) : highByte w = BitVec.ofNat 8 (w.toNat / 256) := by
  rw [← highByte_toNat, BitVec.ofNat_toNat, BitVec.setWidth_eq]

theorem lowByte_wordOf (hi lo : Byte) : lowByte (wordOf hi lo) = lo := by
  apply BitVec.eq_of_toNat_eq
  rw [lowByte_toNat, wordOf_toNat]
  omega

theorem highByte_wordOf (hi lo : Byte) : highByte (wordOf hi lo) = hi := by
  apply BitVec.eq_of_toNat_eq
  rw [highByte_toNat, wordOf_toNat]
  omega

theorem exec_cwFromU16 (s : State) :
    exec .cwFromU16 s = commit { s with cmd0 := lowByte s.arg, cmd1 := highByte s.arg } := rfl

theorem exec_cwFromBytes (s : State) : exec .cwFromBytes s = execCwFromBytes s := rfl

theorem exec_cwSerialize (s : State) : exec .cwSerialize s = commit (s.writeOut [s.cmd0, s.cmd1]) := rfl

/-- The command word CW_FROM_U16 leaves (R96). -/
theorem cwFromU16_word {s t : State} (h : exec .cwFromU16 s = .next t) :
    t.cmd0 = lowByte s.arg ∧ t.cmd1 = highByte s.arg := by
  rw [exec_cwFromU16, commit_eq] at h
  rw [h]
  exact ⟨rfl, rfl⟩

/-- Settles O34: the two halves of ARG, in numbers. -/
theorem cwFromU16Result : Obligations.CwFromU16Result :=
  ⟨rfl, fun s =>
    ⟨_, exec_cwFromU16 s, Status.committed_fields s.status, lowByte_toNat s.arg, highByte_toNat s.arg, rfl⟩⟩

/-- Settles O35: the check on IBUF_LEN decides the outcome; an ARG of the given value is the word of the two bytes, so
CW_FROM_U16 splits it into them again. -/
theorem cwFromBytesResult : Obligations.CwFromBytesResult := by
  refine ⟨rfl, fun s => ⟨fun hshort => ?_, fun henough => ?_⟩⟩
  · exact raises_of_raise ((exec_cwFromBytes s).trans (execCwFromBytes_short s hshort))
  · refine ⟨_, (exec_cwFromBytes s).trans (execCwFromBytes_enough s henough), Status.committed_fields s.status,
      rfl, rfl, rfl, rfl, fun r u harg hu => ?_⟩
    have hword : r.arg = wordOf (s.ibufByte 1) (s.ibufByte 0) :=
      BitVec.eq_of_toNat_eq (harg.trans (wordOf_toNat _ _).symm)
    obtain ⟨hcmd0, hcmd1⟩ := cwFromU16_word hu
    rw [hword, lowByte_wordOf] at hcmd0
    rw [hword, highByte_wordOf] at hcmd1
    exact ⟨hcmd0, hcmd1⟩

theorem cwSerialize_emits (s : State) : ∃ t, Emits .cwSerialize [s.cmd0, s.cmd1] s t :=
  emits_of_commit (exec_cwSerialize s) (by decide : 2 < 512)

/-- Settles O39: after CW_FROM_U16 the two registers hold the two bytes of ARG. -/
theorem cwSerializeResult : Obligations.CwSerializeResult := by
  refine ⟨rfl, cwSerialize_emits, fun s t ht => ?_⟩
  obtain ⟨hcmd0, hcmd1⟩ := cwFromU16_word ht
  rw [← lowByte_eq_ofNat, ← highByte_eq_ofNat, ← hcmd0, ← hcmd1]
  exact cwSerialize_emits t

/-! ### Classifying a command word -/

theorem subsysField_toNat (v : Byte) : (subsysField v).toNat = v.toNat % 32 := by simp [subsysField]

theorem typeField_toNat (v : Byte) : (typeField v).toNat = v.toNat / 32 := by
  simp only [typeField, BitVec.extractLsb'_toNat, Nat.shiftRight_eq_div_pow]
  omega

/-- The masked code as a number of its own (R102). -/
theorem subsysField_eq_ofNat (v : Byte) : subsysField v = BitVec.ofNat 5 (v.toNat % 32) := by
  rw [← subsysField_toNat, BitVec.ofNat_toNat, BitVec.setWidth_eq]

theorem subsysField_congr {v w : Byte} (h : v.toNat % 32 = w.toNat % 32) : subsysField v = subsysField w := by
  rw [subsysField_eq_ofNat, subsysField_eq_ofNat, h]

theorem typeField_congr {v w : Byte} (h : v.toNat / 32 = w.toNat / 32) : typeField v = typeField w := by
  apply BitVec.eq_of_toNat_eq
  rw [typeField_toNat, typeField_toNat, h]

/-- Each of the eight command types has its field for its number (R68). -/
theorem code_ofField (c : BitVec 3) : (CommandType.ofField c).code = c := by revert c; decide

/-- The map on the 32 codes: twelve stay, the others fall back to RpcError (R98). -/
theorem subsysMap_toNat (c : BitVec 5) : (subsysMap c).toNat =
    if c.toNat ∈ [0x00, 0x01, 0x02, 0x03, 0x04, 0x05, 0x06, 0x07, 0x08, 0x09, 0x0F, 0x15] then c.toNat else 0 := by
  revert c; decide

/-- The marker stands above the five bits of the code, so the two fields add up (R102). -/
theorem nameResult_toNat (c : BitVec 5) :
    (nameResult c).toNat = c.toNat + if (Config.subsystemName c).isSome = true then 256 else 0 := by
  have hcode : (c.setWidth 16).toNat = c.toNat := by rw [BitVec.toNat_setWidth]; omega
  rw [nameResult, nameKnown]
  cases (Config.subsystemName c).isSome with
  | false => simpa using hcode
  | true =>
    have hmarker : ((BitVec.ofBool true).setWidth 16 <<< 8).toNat = 1 <<< 8 := rfl
    rw [BitVec.toNat_or, hmarker, ← Nat.shiftLeft_add_eq_or_of_lt (by omega), hcode]
    exact Nat.add_comm _ _

theorem exec_cwSubsystem (s : State) :
    exec .cwSubsystem s = commit { s with res := (subsysMap (subsysField s.cmd0)).setWidth 16 } := rfl

theorem exec_cwType (s : State) : exec .cwType s = commit { s with res := (typeField s.cmd0).setWidth 16 } := by
  rw [← code_ofField (typeField s.cmd0)]
  rfl

theorem exec_cwName (s : State) : exec .cwName s = commit { s with res := nameResult (subsysField s.cmd0) } := rfl

/-- Settles O36: `subsysMap` on the masked code. -/
theorem cwSubsystemResult : Obligations.CwSubsystemResult := by
  refine ⟨rfl, fun s => result_of_commit (exec_cwSubsystem s) ?_⟩
  rw [BitVec.toNat_setWidth_of_le (by decide), subsysMap_toNat, subsysField_toNat]

/-- Settles O37: the number of the command type is the field itself. -/
theorem cwTypeResult : Obligations.CwTypeResult := by
  refine ⟨rfl, fun s => result_of_commit (exec_cwType s) ?_⟩
  rw [BitVec.toNat_setWidth_of_le (by decide), typeField_toNat]

/-- Settles O38: the marker and the masked code, whatever `NAME_SET` holds. -/
theorem cwNameResult : Obligations.CwNameResult := by
  refine ⟨rfl, fun s => result_of_commit (exec_cwName s) ?_⟩
  rw [nameResult_toNat, subsysField_toNat, subsysField_eq_ofNat]

/-- Settles O40: each RES is a function of one field of CMD0. -/
theorem classificationDependsOnCmd0Alone : Obligations.ClassificationDependsOnCmd0Alone := by
  refine fun s r t u => ⟨fun hfield ht hu => ?_, fun hfield ht hu => ?_, fun hfield ht hu => ?_⟩
  · rw [res_of_commit (exec_cwSubsystem s) ht, res_of_commit (exec_cwSubsystem r) hu, subsysField_congr hfield]
  · rw [res_of_commit (exec_cwType s) ht, res_of_commit (exec_cwType r) hu, typeField_congr hfield]
  · rw [res_of_commit (exec_cwName s) ht, res_of_commit (exec_cwName r) hu, subsysField_congr hfield]

end Sys2Proof.Machine

/-! ## Standard frames: the codec of the frame registers

First which checks decide the outcome of each operation, then what it means that IBUF begins with the frame in the frame
registers; each obligation of spec/42_standard_frame.md stands after the facts it is assembled from. -/

namespace Sys2Proof.Machine

/-! ### The header operations -/

theorem exec_hdrFromBytes (s : State) : exec .hdrFromBytes s = execHdrFromBytes s := rfl

theorem exec_hdrSerialize (s : State) : exec .hdrSerialize s = commit (s.writeOut [s.len, s.cmd0, s.cmd1]) := rfl

/-- Settles O41: the two checks in order, then the staged header. -/
theorem hdrFromBytesResult : Obligations.HdrFromBytesResult := by
  refine ⟨rfl, fun s => ⟨fun hshort => ?_, fun h3 hlong => ?_, fun h3 hvalid => ?_⟩⟩
  · exact raises_of_raise ((exec_hdrFromBytes s).trans (execHdrFromBytes_short s hshort))
  · exact raises_of_raise ((exec_hdrFromBytes s).trans (execHdrFromBytes_long s h3 hlong))
  · exact ⟨_, (exec_hdrFromBytes s).trans (execHdrFromBytes_valid s h3 hvalid), Status.committed_fields s.status,
      rfl, rfl, rfl, rfl, rfl⟩

/-- Settles O42: the output is three bytes for every LEN. -/
theorem hdrSerializeResult : Obligations.HdrSerializeResult :=
  ⟨rfl, fun s => emits_of_commit (exec_hdrSerialize s) (by decide : 3 < 512)⟩

/-! ### The frame operations -/

theorem exec_frameFromBytes (s : State) : exec .frameFromBytes s = execFrameFromBytes s := rfl

theorem exec_frameSerialize (s : State) : exec .frameSerialize s = execFrameSerialize s := rfl

theorem frameOf_length (s : State) : (frameOf s).length = 3 + s.len.toNat := frameBytes_length s

/-- Settles O43: the three checks in order, then the staged frame, whose payload goes to PAYLOAD[0..N) alone. -/
theorem frameFromBytesResult : Obligations.FrameFromBytesResult := by
  refine ⟨rfl, fun s => ⟨fun hshort => ?_, fun h3 hlong => ?_, fun h3 hvalid htrunc => ?_, fun hfull hvalid => ?_⟩⟩
  · exact raises_of_raise ((exec_frameFromBytes s).trans (execFrameFromBytes_short s hshort))
  · exact raises_of_raise ((exec_frameFromBytes s).trans (execFrameFromBytes_long s h3 hlong))
  · exact raises_of_raise ((exec_frameFromBytes s).trans (execFrameFromBytes_truncated s h3 hvalid htrunc))
  · have hconsumed : (BitVec.ofNat 16 (3 + (s.ibufByte 0).toNat)).toNat = 3 + (s.ibufByte 0).toNat := by
      rw [BitVec.toNat_ofNat]; omega
    exact ⟨_, (exec_frameFromBytes s).trans (execFrameFromBytes_valid s hvalid hfull),
      Status.committed_fields s.status, rfl, rfl, rfl, hconsumed,
      Memory.find_putBytes s.mem Config.payloadBase (s.ibufSlice 3 (s.ibufByte 0).toNat), rfl⟩

/-- Settles O44: the check on LEN decides the outcome, and a frame of at most 253 bytes fits OBUF_LEN. -/
theorem frameSerializeResult : Obligations.FrameSerializeResult := by
  refine ⟨rfl, fun s => ⟨fun hlong => ?_, fun hvalid => ?_⟩⟩
  · exact raises_of_raise ((exec_frameSerialize s).trans (execFrameSerialize_long s hlong))
  · exact emits_of_commit ((exec_frameSerialize s).trans (execFrameSerialize_valid s hvalid))
      (by rw [frameOf_length]; omega)

/-! ### The round trip -/

/-- What `Stored` says of one of the stored bytes. -/
theorem Stored.find_at {a : Nat} {bs : List Byte} {m m' : Memory} (h : Stored a bs m m') (k : Nat)
    (hk : k < bs.length) : m'.find (a + k) = some bs[k] := by
  rw [h, if_pos (by omega), Nat.add_sub_cancel_left, List.getElem?_eq_getElem hk]

@[simp] theorem inputSpan_length (s : State) (i n : Nat) : (inputSpan s i n).length = n := ibufSlice_length s i n

@[simp] theorem inputSpan_getElem (s : State) (i n k : Nat) (hk : k < (inputSpan s i n).length) :
    (inputSpan s i n)[k] = s.ibufByte (i + k) := by simp [inputSpan]

theorem inputSpan_add (s : State) (i m n : Nat) : inputSpan s i (m + n) = inputSpan s i m ++ inputSpan s (i + m) n := by
  simp [inputSpan, List.range_add, Nat.add_assoc]

/-- Bytes written to the start of IBUF are what an operation reads there. -/
theorem inputSpan_of_find (s : State) (bs : List Byte)
    (h : ∀ k, (hk : k < bs.length) → s.mem.find (0x200 + k) = some bs[k]) : inputSpan s 0 bs.length = bs := by
  refine List.ext_getElem (inputSpan_length s 0 _) fun k _ hk => ?_
  rw [inputSpan_getElem, Nat.zero_add]
  exact bufByte_of_find s _ _ (h k hk)

/-- The input of s begins with the standard frame in the frame registers of r (R74). -/
theorem inputSpan_eq_frameOf_iff (s r : State) : inputSpan s 0 (3 + r.len.toNat) = frameOf r ↔
    s.ibufByte 0 = r.len ∧ s.ibufByte 1 = r.cmd0 ∧ s.ibufByte 2 = r.cmd1 ∧
      ∀ k, k < r.len.toNat → s.ibufByte (3 + k) = r.payloadByte k := by
  have hheader : inputSpan s 0 3 = [s.ibufByte 0, s.ibufByte 1, s.ibufByte 2] := rfl
  have hpayload : inputSpan s (0 + 3) r.len.toNat = (List.range r.len.toNat).map (fun k => r.payloadByte k) ↔
      ∀ k, k < r.len.toNat → s.ibufByte (3 + k) = r.payloadByte k := by
    simp [inputSpan, List.map_inj_left]
  rw [inputSpan_add, hheader, frameOf, ← hpayload]
  simp only [List.cons_append, List.nil_append, List.cons.injEq]

theorem Raises.err_eq {i : Instr} {e : BitVec 4} {s t : State} (h : Raises i e s) (ht : exec i s = .next t) :
    t.status.extractLsb' 0 4 = e := by
  obtain ⟨u, hu, ⟨herr, -⟩, -⟩ := h
  cases hu.symm.trans ht
  exact herr

/-- FRAME_FROM_BYTES ends without an error only on an input that passes its three checks. -/
theorem frameFromBytes_checks {s t : State} (ht : exec .frameFromBytes s = .next t)
    (herr : t.status.extractLsb' 0 4 = 0#4) :
    (s.ibufByte 0).toNat ≤ 250 ∧ 3 + (s.ibufByte 0).toNat ≤ s.ibufLen.toNat := by
  obtain ⟨hshort, hlong, htrunc, -⟩ := frameFromBytesResult.2 s
  have no_raise : ∀ e : BitVec 4, e ≠ 0#4 → ¬ Raises .frameFromBytes e s := fun e he hraise =>
    he ((hraise.err_eq ht).symm.trans herr)
  have h3 : 3 ≤ s.ibufLen.toNat := Nat.le_of_not_lt fun h => no_raise 3#4 (by decide) (hshort h)
  have hvalid : (s.ibufByte 0).toNat ≤ 250 := Nat.le_of_not_lt fun h => no_raise 5#4 (by decide) (hlong h3 h)
  exact ⟨hvalid, Nat.le_of_not_lt fun h => no_raise 3#4 (by decide) (htrunc h3 hvalid h)⟩

/-- A frame serialised from s and put into the input of u is decoded into the registers and payload of s. -/
theorem frameFromBytes_of_frameOf {s u : State} (hlen : s.len.toNat ≤ 250) (hfull : u.ibufLen.toNat = 3 + s.len.toNat)
    (hin : inputSpan u 0 (3 + s.len.toNat) = frameOf s) :
    ∃ w, exec .frameFromBytes u = .next w ∧ CommitStatus u.status w.status ∧ w.len = s.len ∧ w.cmd0 = s.cmd0 ∧
      w.cmd1 = s.cmd1 ∧ w.consumed.toNat = 3 + s.len.toNat ∧
      ∀ k, k < s.len.toNat → w.mem.find (0x100 + k) = some (s.payloadByte k) := by
  obtain ⟨h0, h1, h2, hpayload⟩ := (inputSpan_eq_frameOf_iff u s).mp hin
  obtain ⟨-, -, -, hvalid⟩ := frameFromBytesResult.2 u
  rw [h0, h1, h2] at hvalid
  obtain ⟨w, hw, hstatus, hwlen, hcmd0, hcmd1, hconsumed, hstored, -⟩ := hvalid hfull.ge hlen
  refine ⟨w, hw, hstatus, hwlen, hcmd0, hcmd1, hconsumed, fun k hk => ?_⟩
  rw [hstored.find_at k (by simpa using hk), inputSpan_getElem, hpayload k hk]

/-- The frame registers that FRAME_FROM_BYTES leaves hold the frame its input begins with. -/
theorem frameOf_of_frameFromBytes {s t : State} (ht : exec .frameFromBytes s = .next t)
    (herr : t.status.extractLsb' 0 4 = 0#4) :
    t.len.toNat = (s.ibufByte 0).toNat ∧ inputSpan s 0 (3 + t.len.toNat) = frameOf t := by
  obtain ⟨hvalid, hfull⟩ := frameFromBytes_checks ht herr
  obtain ⟨-, -, -, hdecoded⟩ := frameFromBytesResult.2 s
  obtain ⟨t', ht', -, hlen, hcmd0, hcmd1, -, hstored, -⟩ := hdecoded hfull hvalid
  cases ht'.symm.trans ht
  refine ⟨by rw [hlen], (inputSpan_eq_frameOf_iff s t).mpr ⟨hlen.symm, hcmd0.symm, hcmd1.symm, fun k hk => ?_⟩⟩
  rw [hlen] at hk
  have hcell := hstored.find_at k (by simpa using hk)
  rw [inputSpan_getElem] at hcell
  exact (bufByte_of_find t _ _ hcell).symm

/-- Settles O45: each way, the bytes of the frame in the registers and the bytes at the start of IBUF are the same
(`inputSpan_eq_frameOf_iff`). -/
theorem standardFrameRoundTrip : Obligations.StandardFrameRoundTrip := by
  refine ⟨fun s t u hlen ht hfull hcopy => ?_, fun s t ht herr => ?_⟩
  · obtain ⟨t', ht', -, -, hstored, -⟩ := (frameSerializeResult.2 s).2 hlen
    cases ht'.symm.trans ht
    have hin := inputSpan_of_find u (frameOf s) fun k hk =>
      (hcopy k (frameOf_length s ▸ hk)).trans (hstored.find_at k hk)
    rw [frameOf_length] at hin
    exact frameFromBytes_of_frameOf hlen hfull hin
  · obtain ⟨hlen, hframe⟩ := frameOf_of_frameFromBytes ht herr
    obtain ⟨hvalid, -⟩ := frameFromBytes_checks ht herr
    obtain ⟨w, hw, -, hobuf, hstored, -⟩ := (frameSerializeResult.2 t).2 (hlen.trans_le hvalid)
    rw [← hframe, hlen] at hobuf hstored
    refine ⟨w, hw, hobuf.trans (inputSpan_length s 0 _), fun k hk => ?_⟩
    rw [hstored.find_at k (by simpa using hk), inputSpan_getElem, Nat.zero_add]

end Sys2Proof.Machine

/-! ## Monitor envelopes: the checksum and the frame between its markers

First the laws of the XOR fold, then what it means that IBUF begins with an envelope; each obligation of
spec/43_monitor_envelope.md stands after the facts it is assembled from. -/

namespace Sys2Proof.Machine

/-! ### The XOR fold -/

theorem xorFold_nil : xorFold [] = 0x00#8 := rfl

theorem xorFold_cons (b : Byte) (s : List Byte) : xorFold (b :: s) = b ^^^ xorFold s := by
  rw [xorFold, xorFold, List.foldl_cons, BitVec.xor_comm, List.foldl_assoc]

theorem xorFold_append (s r : List Byte) : xorFold (s ++ r) = xorFold s ^^^ xorFold r := by
  induction s with
  | nil => rw [List.nil_append, xorFold_nil, BitVec.zero_xor]
  | cons b s ih => rw [List.cons_append, xorFold_cons, xorFold_cons, ih, BitVec.xor_assoc]

theorem xorFold_perm {s r : List Byte} (h : s.Perm r) : xorFold s = xorFold r := by
  induction h with
  | nil => rfl
  | cons b _ ih => rw [xorFold_cons, xorFold_cons, ih]
  | swap b c s => simp only [xorFold_cons, ← BitVec.xor_assoc, BitVec.xor_comm b c]
  | trans _ _ ih₁ ih₂ => exact ih₁.trans ih₂

theorem xorFold_replace_ne (s r : List Byte) {b c : Byte} (h : b ≠ c) :
    xorFold (s ++ b :: r) ≠ xorFold (s ++ c :: r) := by
  rw [xorFold_append, xorFold_append, xorFold_cons, xorFold_cons, Ne, BitVec.xor_right_inj, BitVec.xor_left_inj]
  exact h

/-- A message followed by its own fold folds to zero, and followed by any other byte it does not. -/
theorem xorFold_concat_eq_zero_iff (s : List Byte) (b : Byte) : xorFold (s ++ [b]) = 0x00#8 ↔ b = xorFold s := by
  rw [xorFold_append, xorFold_cons, xorFold_nil, BitVec.xor_zero, BitVec.xor_eq_zero_iff, eq_comm]

/-- Settles O46: the fold is a sum in a commutative group in which every byte can be cancelled. -/
theorem xorFoldLaws : Obligations.XorFoldLaws :=
  ⟨xorFold_nil, xorFold_cons, fun _ _ => xorFold_perm, fun s r _ _ => xorFold_replace_ne s r⟩

theorem exec_checksum (s : State) :
    exec .checksum s = commit { s with res := (xorFold (inputSpan s 0 s.ibufLen.toNat)).setWidth 16 } := rfl

/-- Settles O47: a byte stands in RES as the number it is. -/
theorem checksumResult : Obligations.ChecksumResult :=
  ⟨rfl, fun s => result_of_commit (exec_checksum s) (BitVec.toNat_setWidth_of_le (by decide))⟩

/-! ### The envelope operations -/

theorem exec_envFromBytes (s : State) : exec .envFromBytes s = execEnvFromBytes s := rfl

theorem exec_envSerialize (s : State) : exec .envSerialize s = execEnvSerialize s := rfl

theorem exec_envCommand (s : State) : exec .envCommand s = execEnvCommand s := rfl

/-- The input passes the checks of ENV_FROM_BYTES (R114). -/
structure ValidEnvelope (s : State) : Prop where
  start : s.ibufByte 0 = 0xFE#8
  full : 5 + (s.ibufByte 1).toNat ≤ s.ibufLen.toNat
  fcs : s.ibufByte (4 + (s.ibufByte 1).toNat) = xorFold (inputSpan s 1 (3 + (s.ibufByte 1).toNat))
  length_le : (s.ibufByte 1).toNat ≤ 250

theorem ValidEnvelope.exec_eq {s : State} (h : ValidEnvelope s) : exec .envFromBytes s = commit s.decodedEnvelope :=
  (exec_envFromBytes s).trans (execEnvFromBytes_valid s h.start h.full h.fcs h.length_le)

theorem decodedEnvelope_consumed_toNat (s : State) :
    s.decodedEnvelope.consumed.toNat = 5 + (s.ibufByte 1).toNat := by
  rw [State.decodedEnvelope_consumed, BitVec.toNat_ofNat]
  omega

theorem decodedEnvelope_stored (s : State) :
    Stored 0x100 (inputSpan s 4 (s.ibufByte 1).toNat) s.mem s.decodedEnvelope.mem :=
  Memory.find_putBytes s.mem Config.payloadBase (s.ibufSlice 4 (s.ibufByte 1).toNat)

/-- Settles O48: the five checks in order, then the staged envelope, whose payload goes to PAYLOAD[0..N) alone. -/
theorem envFromBytesResult : Obligations.EnvFromBytesResult := by
  refine ⟨rfl, fun s => ?_⟩
  intro n fcs
  split_ifs with hstart htwo hshort hfcs hlong
  · exact raises_of_raise ((exec_envFromBytes s).trans (execEnvFromBytes_noStart s hstart))
  · exact raises_of_raise ((exec_envFromBytes s).trans (execEnvFromBytes_short s (by omega)))
  · exact raises_of_raise ((exec_envFromBytes s).trans (execEnvFromBytes_short s hshort))
  all_goals
    have h0 : s.ibufByte 0 = 0xFE#8 := not_not.mp fun h => hstart (.inr h)
    have hfull : 5 + n ≤ s.ibufLen.toNat := Nat.le_of_not_lt hshort
  · exact raises_of_raise ((exec_envFromBytes s).trans (execEnvFromBytes_mismatch s h0 hfull hfcs))
  · exact raises_of_raise ((exec_envFromBytes s).trans (execEnvFromBytes_long s h0 hfull (not_not.mp hfcs) hlong))
  · have hvalid : ValidEnvelope s := ⟨h0, hfull, not_not.mp hfcs, Nat.le_of_not_lt hlong⟩
    exact ⟨_, hvalid.exec_eq, Status.committed_fields s.status, rfl, rfl, rfl, rfl,
      BitVec.toNat_setWidth_of_le (by decide), decodedEnvelope_consumed_toNat s, decodedEnvelope_stored s, rfl⟩

/-- An envelope of at most 255 bytes fits OBUF_LEN. -/
theorem envSerialize_emits {s : State} (hstd : s.variant = 0#1) (hlen : s.len.toNat ≤ 250) :
    ∃ t, Emits .envSerialize (envelopeBytes (frameOf s)) s t :=
  emits_of_commit ((exec_envSerialize s).trans (execEnvSerialize_valid s hstd hlen))
    (by rw [envelopeBytes_length, frameOf_length]; omega)

/-- Settles O49: the check on VARIANT, then the check on LEN, then the envelope of the frame in the registers. -/
theorem envSerializeResult : Obligations.EnvSerializeResult := by
  refine ⟨rfl, fun s => ⟨fun hext => ?_, fun hstd hlong => ?_, fun hstd hvalid => ?_⟩⟩
  · exact raises_of_raise ((exec_envSerialize s).trans (execEnvSerialize_extended s hext))
  · exact raises_of_raise ((exec_envSerialize s).trans (execEnvSerialize_long s hstd hlong))
  · exact envSerialize_emits hstd hvalid

/-- CW_FROM_U16 splits the word of two bytes into them again (R96). -/
theorem cwFromU16_of_wordOf {r u : State} {hi lo : Byte} (harg : r.arg = wordOf hi lo)
    (hu : exec .cwFromU16 r = .next u) : u.cmd0 = lo ∧ u.cmd1 = hi := by
  obtain ⟨hcmd0, hcmd1⟩ := cwFromU16_word hu
  rw [harg, lowByte_wordOf] at hcmd0
  rw [harg, highByte_wordOf] at hcmd1
  exact ⟨hcmd0, hcmd1⟩

/-- Settles O50: RES is the command word itself, so CW_FROM_U16 splits it into its two bytes again. -/
theorem envCommandResult : Obligations.EnvCommandResult := by
  refine ⟨rfl, fun s => ⟨fun hext => ?_, fun hstd => ?_⟩⟩
  · exact raises_of_raise ((exec_envCommand s).trans (execEnvCommand_extended s hext))
  · refine ⟨_, (exec_envCommand s).trans (execEnvCommand_standard s hstd), Status.committed_fields s.status,
      wordOf_toNat s.cmd1 s.cmd0, rfl, fun r u harg hu => cwFromU16_of_wordOf harg hu⟩

/-! ### Envelopes in IBUF -/

theorem inputSpan_succ (s : State) (i n : Nat) : inputSpan s i (n + 1) = s.ibufByte i :: inputSpan s (i + 1) n := by
  rw [Nat.add_comm, inputSpan_add]
  rfl

theorem inputSpan_concat (s : State) (i n : Nat) : inputSpan s i (n + 1) = inputSpan s i n ++ [s.ibufByte (i + n)] :=
  inputSpan_add s i n 1

theorem inputSpan_header (s : State) (i n : Nat) : inputSpan s i (3 + n) =
    [s.ibufByte i, s.ibufByte (i + 1), s.ibufByte (i + 2)] ++ inputSpan s (i + 3) n := inputSpan_add s i 3 n

/-- The input begins with the envelope of the bytes bs (R75). -/
theorem inputSpan_eq_envelopeBytes_iff (s : State) (bs : List Byte) :
    inputSpan s 0 (bs.length + 2) = envelopeBytes bs ↔
      s.ibufByte 0 = 0xFE#8 ∧ inputSpan s 1 bs.length = bs ∧ s.ibufByte (1 + bs.length) = xorFold bs := by
  rw [inputSpan_succ, inputSpan_concat, Nat.zero_add, envelopeBytes, List.cons_append, List.cons_eq_cons,
    List.append_singleton_inj, Config.sof]

/-- After its first byte, the input continues with the standard frame in the frame registers of r (R74). -/
theorem inputSpan_one_eq_frameOf_iff (s r : State) : inputSpan s 1 (3 + r.len.toNat) = frameOf r ↔
    s.ibufByte 1 = r.len ∧ s.ibufByte 2 = r.cmd0 ∧ s.ibufByte 3 = r.cmd1 ∧
      inputSpan s 4 r.len.toNat = r.payloadSlice r.len.toNat := by
  have hpayload : frameOf r = [r.len, r.cmd0, r.cmd1] ++ r.payloadSlice r.len.toNat := rfl
  rw [inputSpan_header, hpayload]
  simp only [List.cons_append, List.nil_append, List.cons.injEq]

/-- Bytes stored at the start of PAYLOAD are the payload. -/
theorem payloadSlice_of_stored {t : State} {bs : List Byte} {m : Memory} (h : Stored 0x100 bs m t.mem) :
    t.payloadSlice bs.length = bs := by
  refine List.ext_getElem (payloadSlice_length t _) fun k hk hk' => ?_
  have hread : (t.payloadSlice bs.length)[k] = t.payloadByte k := by simp [State.payloadSlice]
  exact hread.trans (bufByte_of_find t _ _ (h.find_at k hk'))

/-- Every error kind has a code other than 0, the code of success (R129). -/
theorem ErrorKind.code_ne_zero (k : ErrorKind) : k.code ≠ 0#4 := by cases k <;> decide

theorem exec_ne_raise_of_noError {i : Instr} {s t : State} (ht : exec i s = .next t)
    (herr : t.status.extractLsb' 0 4 = 0#4) (k : ErrorKind) : exec i s ≠ raise k s := fun hraise =>
  k.code_ne_zero (((raises_of_raise hraise).err_eq ht).symm.trans herr)

/-- ENV_FROM_BYTES ends without an error only on an input that passes its checks. -/
theorem validEnvelope_of_noError {s t : State} (ht : exec .envFromBytes s = .next t)
    (herr : t.status.extractLsb' 0 4 = 0#4) : ValidEnvelope s := by
  have no_raise : ∀ k, execEnvFromBytes s ≠ raise k s := exec_ne_raise_of_noError ht herr
  have hstart : s.ibufByte 0 = 0xFE#8 := not_not.mp fun h => no_raise _ (execEnvFromBytes_noStart s (.inr h))
  have hfull : 5 + (s.ibufByte 1).toNat ≤ s.ibufLen.toNat :=
    Nat.le_of_not_lt fun h => no_raise _ (execEnvFromBytes_short s h)
  have hfcs : s.ibufByte (4 + (s.ibufByte 1).toNat) = s.inputFcs :=
    not_not.mp fun h => no_raise _ (execEnvFromBytes_mismatch s hstart hfull h)
  exact ⟨hstart, hfull, hfcs, Nat.le_of_not_lt fun h => no_raise _ (execEnvFromBytes_long s hstart hfull hfcs h)⟩

/-- A decode that ends without an error is the staged envelope, committed. -/
theorem envFromBytes_committed {s t : State} (ht : exec .envFromBytes s = .next t)
    (herr : t.status.extractLsb' 0 4 = 0#4) :
    t = { s.decodedEnvelope with status := Status.committed s.status } :=
  (commit_eq _ _).mp ((validEnvelope_of_noError ht herr).exec_eq.symm.trans ht)

/-- The payload that a decode without an error leaves is the one of the input. -/
theorem envFromBytes_payload {s t : State} (ht : exec .envFromBytes s = .next t)
    (herr : t.status.extractLsb' 0 4 = 0#4) :
    t.payloadSlice t.len.toNat = inputSpan s 4 (s.ibufByte 1).toNat := by
  have hslice := payloadSlice_of_stored (t := t) (bs := inputSpan s 4 (s.ibufByte 1).toNat) (m := s.mem)
  rw [inputSpan_length] at hslice
  rw [envFromBytes_committed ht herr] at hslice ⊢
  exact hslice (decodedEnvelope_stored s)

/-- Settles O52: the registers are the staged ones, and a complete envelope has a second byte. -/
theorem decodedEnvelopeIsStandardFrame : Obligations.DecodedEnvelopeIsStandardFrame := by
  intro s t ht herr
  have hvalid := validEnvelope_of_noError ht herr
  have hpayload := envFromBytes_payload ht herr
  have ht' := envFromBytes_committed ht herr
  have hlen : t.len = s.ibufByte 1 := by rw [ht']; rfl
  have hvariant : t.variant ≠ 1#1 := by rw [ht']; exact (by decide : 0#1 ≠ 1#1)
  have hcmd : t.commandWord = ⟨s.ibufByte 2, s.ibufByte 3⟩ := by rw [ht']; rfl
  have hconsumed : t.consumed.toNat = 5 + (s.ibufByte 1).toNat := by
    rw [ht']
    exact decodedEnvelope_consumed_toNat s
  have hmin : min t.len.toNat Config.payloadMax = t.len.toNat := min_eq_left (hlen ▸ hvalid.length_le)
  refine ⟨?_, ?_⟩
  · rw [State.monitorFrame, if_neg hvariant, hmin, hpayload, hlen, hcmd]
  · obtain ⟨n, hn⟩ : ∃ n, s.ibufLen.toNat = n + 2 := ⟨s.ibufLen.toNat - 2, by have := hvalid.full; omega⟩
    rw [hn, inputSpan_succ, inputSpan_succ, hconsumed]
    rfl

/-! ### The round trip -/

/-- An envelope serialised from s and put into the input of u is decoded into the registers and payload of s. -/
theorem envFromBytes_of_envelopeBytes {s u : State} (hlen : s.len.toNat ≤ 250)
    (hfull : u.ibufLen.toNat = 5 + s.len.toNat)
    (hin : inputSpan u 0 ((frameOf s).length + 2) = envelopeBytes (frameOf s)) :
    ∃ w, exec .envFromBytes u = .next w ∧ CommitStatus u.status w.status ∧ w.variant = 0#1 ∧ w.len = s.len ∧
      w.cmd0 = s.cmd0 ∧ w.cmd1 = s.cmd1 ∧ w.consumed.toNat = 5 + s.len.toNat ∧
      ∀ k, k < s.len.toNat → w.mem.find (0x100 + k) = some (s.payloadByte k) := by
  obtain ⟨h0, hframe, hfcs⟩ := (inputSpan_eq_envelopeBytes_iff u (frameOf s)).mp hin
  rw [frameOf_length] at hframe hfcs
  obtain ⟨h1, h2, h3, hpayload⟩ := (inputSpan_one_eq_frameOf_iff u s).mp hframe
  have hfcs' : u.ibufByte (4 + s.len.toNat) = xorFold (inputSpan u 1 (3 + s.len.toNat)) := by
    rw [hframe, ← hfcs, ← Nat.add_assoc]
  rw [← h1] at hlen hfull hfcs'
  have hvalid : ValidEnvelope u := ⟨h0, hfull.ge, hfcs', hlen⟩
  have hconsumed := decodedEnvelope_consumed_toNat u
  have hstored := decodedEnvelope_stored u
  rw [h1] at hconsumed hstored
  rw [hpayload] at hstored
  refine ⟨_, hvalid.exec_eq, Status.committed_fields u.status, rfl, h1, h2, h3, hconsumed, fun k hk => ?_⟩
  refine (hstored.find_at k (by simpa using hk)).trans ?_
  simp [State.payloadSlice]

/-- A valid envelope is the envelope of the bytes between its start marker and its FCS. -/
theorem ValidEnvelope.inputSpan_eq {s : State} (h : ValidEnvelope s) :
    inputSpan s 0 (5 + (s.ibufByte 1).toNat) = envelopeBytes (inputSpan s 1 (3 + (s.ibufByte 1).toNat)) := by
  have hiff := inputSpan_eq_envelopeBytes_iff s (inputSpan s 1 (3 + (s.ibufByte 1).toNat))
  rw [inputSpan_length, ← Nat.add_assoc, Nat.add_right_comm] at hiff
  exact hiff.mpr ⟨h.start, rfl, h.fcs⟩

/-- The frame registers that ENV_FROM_BYTES leaves hold the Standard variant, and the frame of its input. -/
theorem frameOf_of_envFromBytes {s t : State} (ht : exec .envFromBytes s = .next t)
    (herr : t.status.extractLsb' 0 4 = 0#4) :
    t.variant = 0#1 ∧ t.len.toNat = (s.ibufByte 1).toNat ∧
      frameOf t = inputSpan s 1 (3 + (s.ibufByte 1).toNat) := by
  have hpayload := envFromBytes_payload ht herr
  have ht' := envFromBytes_committed ht herr
  have hlen : s.ibufByte 1 = t.len := by rw [ht']; rfl
  have hcmd0 : s.ibufByte 2 = t.cmd0 := by rw [ht']; rfl
  have hcmd1 : s.ibufByte 3 = t.cmd1 := by rw [ht']; rfl
  rw [hlen] at hpayload ⊢
  exact ⟨by rw [ht']; rfl, rfl, ((inputSpan_one_eq_frameOf_iff s t).mpr ⟨hlen, hcmd0, hcmd1, hpayload.symm⟩).symm⟩

/-- Settles O51: each way, the envelope of the frame in the registers and the bytes at the start of IBUF are the same
(`inputSpan_eq_envelopeBytes_iff`). -/
theorem envelopeRoundTrip : Obligations.EnvelopeRoundTrip := by
  refine ⟨fun s t u hstd hlen ht hfull hcopy => ?_, fun s t ht herr => ?_⟩
  · obtain ⟨t', ht', -, -, hstored, -⟩ := envSerialize_emits hstd hlen
    cases ht'.symm.trans ht
    have hin := inputSpan_of_find u (envelopeBytes (frameOf s)) fun k hk =>
      (hcopy k (by rw [envelopeBytes_length, frameOf_length] at hk; omega)).trans (hstored.find_at k hk)
    rw [envelopeBytes_length] at hin
    exact envFromBytes_of_envelopeBytes hlen hfull hin
  · have hvalid := validEnvelope_of_noError ht herr
    obtain ⟨hstd, hlen, hframe⟩ := frameOf_of_envFromBytes ht herr
    obtain ⟨w, hw, -, hobuf, hstored, -⟩ := envSerialize_emits hstd (hlen.trans_le hvalid.length_le)
    rw [hframe, ← hvalid.inputSpan_eq] at hobuf hstored
    refine ⟨w, hw, hobuf.trans (inputSpan_length s 0 _), fun k hk => ?_⟩
    rw [hstored.find_at k (by simpa using hk), inputSpan_getElem, Nat.zero_add]

/-! ### Corruption of one byte -/

theorem inputSpan_congr {s r : State} {i n : Nat} (h : ∀ k, i ≤ k → k < i + n → r.ibufByte k = s.ibufByte k) :
    inputSpan r i n = inputSpan s i n :=
  List.map_congr_left fun k hk => h (i + k) (by omega) (by rw [List.mem_range] at hk; omega)

/-- Inputs that differ at one byte of a range have different folds over that range. -/
theorem xorFold_inputSpan_ne {s r : State} {i n j : Nat} (hij : i ≤ j) (hjn : j < i + n)
    (hsame : ∀ k, i ≤ k → k < i + n → k ≠ j → r.ibufByte k = s.ibufByte k) (hdiff : r.ibufByte j ≠ s.ibufByte j) :
    xorFold (inputSpan r i n) ≠ xorFold (inputSpan s i n) := by
  obtain ⟨a, rfl⟩ := Nat.exists_eq_add_of_le hij
  obtain ⟨b, rfl⟩ : ∃ b, n = a + (b + 1) := ⟨n - a - 1, by omega⟩
  have hbefore : inputSpan r i a = inputSpan s i a :=
    inputSpan_congr fun k _ _ => hsame k (by omega) (by omega) (by omega)
  have hafter : inputSpan r (i + a + 1) b = inputSpan s (i + a + 1) b :=
    inputSpan_congr fun k _ _ => hsame k (by omega) (by omega) (by omega)
  rw [inputSpan_add r, inputSpan_add s, inputSpan_succ r, inputSpan_succ s, hbefore, hafter]
  exact xorFold_replace_ne _ _ hdiff

/-- The check of the FCS, as a fold over all of the envelope but its start marker. -/
theorem fcs_iff_fold_eq_zero (s : State) (n : Nat) :
    s.ibufByte (4 + n) = xorFold (inputSpan s 1 (3 + n)) ↔ xorFold (inputSpan s 1 (4 + n)) = 0x00#8 := by
  rw [← xorFold_concat_eq_zero_iff, show 4 + n = 3 + n + 1 by omega, inputSpan_concat, Nat.add_comm 1]

/-- Settles O53: a changed byte 0 and a larger length fail the framing checks; any other changed byte changes the fold
over the envelope, which was zero (`fcs_iff_fold_eq_zero`). -/
theorem singleByteCorruptionDetected : Obligations.SingleByteCorruptionDetected := by
  intro s t r j ht herr hlen hrlen hsame hdiff
  have hvalid := validEnvelope_of_noError ht herr
  have hrfull : r.ibufLen.toNat = 5 + (s.ibufByte 1).toNat := by rw [hrlen, hlen]
  refine ⟨fun hj2 hjn => ?_, fun hj0 => ?_, fun hj1 hlonger => ?_⟩
  · have hstart : r.ibufByte 0 = 0xFE#8 := (hsame 0 (by omega) (by omega)).trans hvalid.start
    have hlength : r.ibufByte 1 = s.ibufByte 1 := hsame 1 (by omega) (by omega)
    have hfold : xorFold (inputSpan r 1 (4 + (s.ibufByte 1).toNat)) ≠ 0x00#8 := by
      rw [← (fcs_iff_fold_eq_zero s _).mp hvalid.fcs]
      exact xorFold_inputSpan_ne (by omega) (by omega) (fun k _ _ => hsame k (by omega)) hdiff
    rw [← hlength] at hrfull hfold
    exact raises_of_raise ((exec_envFromBytes r).trans
      (execEnvFromBytes_mismatch r hstart hrfull.ge (mt (fcs_iff_fold_eq_zero r _).mp hfold)))
  · subst hj0
    rw [hvalid.start] at hdiff
    exact raises_of_raise ((exec_envFromBytes r).trans (execEnvFromBytes_noStart r (.inr hdiff)))
  · exact raises_of_raise ((exec_envFromBytes r).trans (execEnvFromBytes_short r (by omega)))

end Sys2Proof.Machine

/-! ## Link acknowledgements: the CRC, control frames and the accept step

First why a message followed by its CRC has CRC 0, then the bytes of a control frame in numbers and the fields of a
received control byte; each obligation of spec/44_link_ack.md stands after the facts it is assembled from. -/

namespace Sys2Proof.Machine

/-! ### The CRC -/

/-- Settles O54, by running the eight bit steps of each byte of each message. -/
theorem crcCheckValues : Obligations.CrcCheckValues := by
  simp [Obligations.CrcCheckValues, crc16Xmodem, crcByte, crcBits, crcBit]

theorem crc16Xmodem_append (m r : List Byte) : crc16Xmodem (m ++ r) = r.foldl crcByte (crc16Xmodem m) :=
  List.foldl_append

/-- A bit step with bit 15 clear is a shift (R120). -/
theorem crcBit_of_lt (w : Word16) (h : w.toNat < 2 ^ 15) : crcBit w = w <<< 1 := by
  have hbit : w.getLsbD 15 = false := Nat.testBit_lt_two_pow h
  rw [crcBit, hbit, if_neg Bool.false_ne_true]

/-- Bit steps that shift no 1 out of bit 15 are a shift. -/
theorem crcBits_of_lt (n : Nat) (w : Word16) (h : w.toNat * 2 ^ n < 2 ^ 16) : crcBits n w = w <<< n := by
  induction n generalizing w with
  | zero => rw [crcBits, BitVec.shiftLeft_zero]
  | succ n ih =>
    have hdouble : w.toNat * 2 * 2 ^ n < 2 ^ 16 := by rwa [Nat.mul_assoc, ← Nat.pow_succ']
    have hsmall : w.toNat * 2 < 2 ^ 16 := (Nat.le_mul_of_pos_right _ (Nat.two_pow_pos n)).trans_lt hdouble
    have hshift : (w <<< 1).toNat = w.toNat * 2 := by
      rw [BitVec.toNat_shiftLeft, Nat.shiftLeft_eq, Nat.mod_eq_of_lt hsmall]
    rw [crcBits, crcBit_of_lt w (by omega), ih (w <<< 1) (by rwa [hshift]), ← BitVec.shiftLeft_add, Nat.add_comm]

/-- A byte in the lower half is only shifted into the upper half. -/
theorem crcBits_lowerHalf (b : Byte) : crcBits 8 (b.setWidth 16) = b.setWidth 16 <<< 8 := by
  apply crcBits_of_lt
  rw [BitVec.toNat_setWidth_of_le (by decide)]
  omega

/-- XORing its own upper half into a word leaves the lower half. -/
theorem xor_highByte (w : Word16) : w ^^^ ((highByte w).setWidth 16 <<< 8) = (lowByte w).setWidth 16 := by
  ext k hk
  simp only [highByte, lowByte, BitVec.getElem_xor, BitVec.getElem_shiftLeft, BitVec.getElem_setWidth,
    BitVec.getLsbD_extractLsb', Nat.zero_add]
  by_cases hlow : k < 8
  · simp [hlow, BitVec.getLsbD_eq_getElem hk]
  · rw [Nat.add_sub_cancel' (Nat.le_of_not_lt hlow)]
    simp [hlow, BitVec.getLsbD_eq_getElem hk, show k - 8 < 8 by omega]

/-- The high byte of the CRC so far cancels the upper half, and the lower half moves up. -/
theorem crcByte_highByte (w : Word16) : crcByte w (highByte w) = (lowByte w).setWidth 16 <<< 8 := by
  rw [crcByte, xor_highByte, crcBits_lowerHalf]

theorem crcByte_self (b : Byte) : crcByte (b.setWidth 16 <<< 8) b = 0x0000#16 := by
  rw [crcByte, BitVec.xor_self]
  rfl

/-- A message followed by its CRC, high byte first, has CRC 0. -/
theorem crc16Xmodem_append_crc (m : List Byte) :
    crc16Xmodem (m ++ [highByte (crc16Xmodem m), lowByte (crc16Xmodem m)]) = 0x0000#16 := by
  rw [crc16Xmodem_append, List.foldl_cons, List.foldl_cons, List.foldl_nil, crcByte_highByte, crcByte_self]

/-! ### Control frames -/

/-- A control frame is its message, the CRC of the message and the terminator (R121). -/
theorem ctrlFrame_eq_concat (c : Byte) (p : List Byte) : ctrlFrame c p =
    ((c :: p) ++ [highByte (crc16Xmodem (c :: p)), lowByte (crc16Xmodem (c :: p))]) ++ [0x7E#8] :=
  (List.append_assoc (c :: p) [_, _] [_]).symm

/-- Settles O55: the high byte of the CRC cancels its upper half, then the low byte the rest. -/
theorem framesHaveZeroResidue : Obligations.FramesHaveZeroResidue := by
  refine ⟨crc16Xmodem_append_crc, fun c p => ⟨?_, ?_, ctrlFrame_length c p⟩⟩
  · rw [ctrlFrame_eq_concat, List.dropLast_concat, crc16Xmodem_append_crc]
  · rw [ctrlFrame_eq_concat, List.getLast?_concat]

/-- The CRC bytes of a control frame, in numbers. -/
theorem ctrlFrame_eq_ofNat (c : Byte) (p : List Byte) : ctrlFrame c p =
    (c :: p) ++ [BitVec.ofNat 8 ((crc16Xmodem (c :: p)).toNat / 256),
      BitVec.ofNat 8 ((crc16Xmodem (c :: p)).toNat % 256), 0x7E#8] := by
  rw [ctrlFrame, highByte_eq_ofNat, lowByte_eq_ofNat, Config.linkTerminator]

/-- ARG[7:0] as a number of its own (R27). -/
theorem argByte_eq_ofNat (s : State) : s.argByte = BitVec.ofNat 8 (s.arg.toNat % 256) := lowByte_eq_ofNat s.arg

theorem exec_linkMakeCtrl (s : State) :
    exec .linkMakeCtrl s = commit { s.writeOut (ctrlFrame s.argByte (inputSpan s 0 s.ibufLen.toNat)) with
      res := crc16Xmodem (s.argByte :: inputSpan s 0 s.ibufLen.toNat) } := rfl

/-- Settles O56: the output is the control frame in numbers, and its at most 260 bytes fit OBUF_LEN. -/
theorem linkMakeCtrlResult : Obligations.LinkMakeCtrlResult := by
  refine ⟨rfl, fun s hlen => ?_⟩
  rw [← argByte_eq_ofNat]
  refine ⟨_, exec_linkMakeCtrl s, Status.committed_fields s.status, rfl, ?_, ?_, rfl⟩
  · rw [State.writeOut_obufLen, ctrlFrame_length, inputSpan_length, BitVec.toNat_ofNat]
    omega
  · rw [State.writeOut_mem, ctrlFrame_eq_ofNat]
    exact Memory.find_putBytes s.mem 0x400 _

/-! ### Sending an acknowledgement -/

theorem exec_linkSendAck (s : State) : exec .linkSendAck s = hold (ackFrame s.argByte) s := rfl

/-- Settles O57: the hold writes PEND and BUSY, and the frame is the control frame in numbers. -/
theorem linkSendAckHolds : Obligations.LinkSendAckHolds := by
  refine ⟨rfl, fun s => ⟨_, ackFrame s.argByte, exec_linkSendAck s, rfl, ?_, ?_, fun k hk => ?_, rfl⟩⟩
  · rw [ackFrame_argByte, ctrlFrame_eq_ofNat]
    rfl
  · rw [Status.setBusy_bits]
    simp
  · rw [Status.setBusy_bits]
    simp [hk]

/-- Settles O58: the accept step completes the operation, and its two middle bytes make RES. -/
theorem transportAcceptCompletes : Obligations.TransportAcceptCompletes := by
  intro s f rest hin hpend
  have hstep := step_cons s .accept rest hin
  obtain ⟨herr, hdone, hbusy, hsticky, hreserved⟩ := Status.accepted_fields s.status
  rw [takeEvent, transportAccept_some (s.advance rest) f hpend] at hstep
  refine ⟨_, hstep, rfl, Memory.find_putBytes s.mem 0x400 f.toList, ?_, wordOf_toNat f[1] f[2], rfl, hbusy, herr,
    hdone, hsticky, hreserved, rfl⟩
  rw [State.writeOut_obufLen, Vector.length_toList]

/-! ### Parsing a received control byte -/

theorem frameNumber_toNat (b : Byte) : (frameNumber b).toNat = b.toNat / 16 % 8 := by
  simp [frameNumber, Nat.shiftRight_eq_div_pow]

theorem retransmitFlag_toNat (b : Byte) : (retransmitFlag b).toNat = b.toNat / 8 % 2 := by
  simp [retransmitFlag, Nat.shiftRight_eq_div_pow]

/-- The acknowledgement sequence wraps at 8 (R79). -/
theorem ackSequence_toNat (b : Byte) : (ackSequence b).toNat = (b.toNat / 16 % 8 + 1) % 8 := by
  rw [ackSequence, BitVec.toNat_add, frameNumber_toNat]
  rfl

/-- The three fields of the RES layout do not overlap, so they add up (R80). -/
theorem parseResult_toNat (a n : BitVec 3) (r : BitVec 1) :
    ((a.setWidth 16 <<< 4) ||| (r.setWidth 16 <<< 3) ||| n.setWidth 16 : Word16).toNat =
      n.toNat + 8 * r.toNat + 16 * a.toNat := by
  revert a n r; decide

theorem exec_linkParseCtrl (s : State) : exec .linkParseCtrl s = commit { s with
    res := ((ackSequence s.argByte).setWidth 16 <<< 4) |||
      ((retransmitFlag s.argByte).setWidth 16 <<< 3) ||| (frameNumber s.argByte).setWidth 16 } := rfl

/-- Settles O60, field by field of the control byte. -/
theorem linkParseCtrlResult : Obligations.LinkParseCtrlResult := by
  refine ⟨rfl, fun s => result_of_commit (exec_linkParseCtrl s) ?_⟩
  rw [parseResult_toNat, frameNumber_toNat, retransmitFlag_toNat, ackSequence_toNat, State.argByte, lowByte_toNat]

end Sys2Proof.Machine

/-! ## Errors: what answers, what raises, and what keeps the codec still

First that every event is answered, then what a raise changes, then the steps that change nothing; each obligation of
spec/60_exceptions.md stands after the facts it is assembled from. -/

namespace Sys2Proof.Machine

/-! ### Every event is answered -/

theorem issue_answers (v : Byte) (s : State) : ∃ t, issue v s = .next t := by
  cases hv : decode v with
  | ok i =>
    rw [issue_defined v i s hv]
    exact exec_answers i (s.beginIssue v)
  | error e =>
    rw [decode_error_eq v e hv] at hv
    exact ⟨_, issue_illegal v s hv⟩

/-- A host write is answered at every address: no access raises a bus error (R47). -/
theorem hostWrite_answers (a : Addr) (v : Byte) (s : State) : ∃ t, hostWrite a v s = .next t := by
  unfold hostWrite
  split
  case h_1 => exact ⟨_, rfl⟩
  case h_2 =>
    split
    · exact ⟨s, rfl⟩
    · exact issue_answers v s
  case h_3 =>
    split
    · exact ⟨s, rfl⟩
    · exact ⟨_, rfl⟩
  case h_4 => exact ⟨s, rfl⟩

theorem takeEvent_answers (e : Event) (s : State) : ∃ t, takeEvent e s = .next t := by
  cases e with
  | host x =>
    cases x with
    | read a => exact ⟨hostRead a s, rfl⟩
    | write a v => exact hostWrite_answers a v s
  | accept => exact ⟨transportAccept s, rfl⟩
  | reset => exact ⟨assertReset s, rfl⟩

/-- Settles O5: with no event to come the state stays, and every event is answered. -/
theorem stepAlwaysAnswersNext : Obligations.StepAlwaysAnswersNext := by
  intro s
  cases hin : s.inputs with
  | nil => exact ⟨s, step_nil s hin⟩
  | cons e rest =>
    rw [step_cons s e rest hin]
    exact takeEvent_answers e (s.advance rest)

/-! ### Raises -/

/-- Settles O28: of the three shapes of an answer, a commit ends with ERR = 0 and only LINK_SEND_ACK holds. -/
theorem raisesArePrecise : Obligations.RaisesArePrecise := by
  intro i s t hi ht herr
  cases exec_shape i s t ht with
  | raised k h =>
    subst h
    exact ⟨rfl, k, Status.raised_fields k s.status⟩
  | held hsend _ => exact absurd hsend hi
  | committed u _ _ h =>
    subst h
    obtain ⟨hzero, -⟩ := Status.committed_fields u.status
    exact absurd hzero herr

/-- Settles O29, kind by kind. -/
theorem errorCodeNumbers : Obligations.ErrorCodeNumbers := ⟨rfl, rfl, rfl, rfl, rfl, rfl⟩

/-! ### Steps that change nothing -/

/-- The accept step is not enabled while PEND is empty: the step only takes the event (R137, log entry 5). -/
theorem step_accept_notEnabled (s : State) (rest : List Event) (hin : s.inputs = .accept :: rest)
    (hp : s.pend = none) : step s = .next (s.advance rest) := by
  rw [step_cons s .accept rest hin]
  exact congrArg _ (transportAccept_none (s.advance rest) hp)

theorem isHostAccess_iff (e : Event) : Event.isHostAccess e = true ↔ ∃ x, e = .host x := by
  cases e <;> simp [Event.isHostAccess]

theorem runOver_iff (s : State) :
    s.runOver = true ↔ (∀ x : Access, Event.host x ∉ s.inputs) ∧ s.pend = none := by
  have hinputs : s.inputs.any Event.isHostAccess = false ↔ ∀ x : Access, Event.host x ∉ s.inputs := by
    rw [List.any_eq_false]
    constructor
    · exact fun h x hx => h _ hx rfl
    · intro h e he haccess
      obtain ⟨x, rfl⟩ := (isHostAccess_iff e).mp haccess
      exact h x he
  rw [State.runOver, Bool.and_eq_true, Bool.not_eq_true', hinputs, Option.isNone_iff_eq_none]

/-- A run that is over stays over when an event is taken from the total order. -/
theorem runOver_advance (s : State) (e : Event) (rest : List Event) (hover : s.runOver = true)
    (hin : s.inputs = e :: rest) : (s.advance rest).runOver = true := by
  rw [runOver_iff] at hover ⊢
  obtain ⟨hno, hp⟩ := hover
  refine ⟨fun x hx => hno x ?_, hp⟩
  rw [hin]
  exact List.mem_cons_of_mem e hx

/-- Once a run is over, an event that is not RESET is an accept step that is not enabled. -/
theorem step_runOver (s : State) (e : Event) (rest : List Event) (hover : s.runOver = true)
    (hin : s.inputs = e :: rest) (he : e ≠ .reset) : step s = .next (s.advance rest) := by
  obtain ⟨hno, hp⟩ := (runOver_iff s).mp hover
  cases e with
  | host x => exact absurd (hin ▸ List.mem_cons_self) (hno x)
  | accept => exact step_accept_notEnabled s rest hin hp
  | reset => exact absurd rfl he

/-- Settles O6: the steps that change nothing, and no event but RESET does more once a run is over. -/
theorem idleStateStays : Obligations.IdleStateStays :=
  ⟨step_nil, step_accept_notEnabled, runOver_iff, fun s e rest hover hin he =>
    ⟨s.advance rest, step_runOver s e rest hover hin he, rfl, runOver_advance s e rest hover hin⟩⟩

end Sys2Proof.Machine

/-! ## Reset and hazards: the end of a held operation, and the order of the two writes to IBUF_LEN

The effect of one host access on a busy codec and of one RESET step, then the obligations of
spec/70_reset_and_hazards.md. -/

namespace Sys2Proof.Machine

/-- A host access while BUSY = 1, as one step: of STATUS only STICKY may change, and of the rest of the state only the
record of reads and the model's own bookkeeping (R21, R62). -/
theorem step_host_busy (s t : State) (x : Access) (rest : List Event) (hbusy : Status.busy s.status = true)
    (hin : s.inputs = .host x :: rest) (hstep : step s = .next t) :
    (∀ k, k ≠ 6 → t.status.getLsbD k = s.status.getLsbD k) ∧
      t = { s with status := t.status, inputs := rest, reads := t.reads, draws := s.draws + 1 } := by
  cases x with
  | read a =>
    cases (step_read s a rest hin).symm.trans hstep
    exact ⟨fun _ _ => rfl, rfl⟩
  | write a v =>
    obtain ⟨hignored, hstatus, -⟩ := busyIgnoresHostWrites s a rest hbusy
    by_cases ha : a = 0x001#11
    · obtain ⟨u, hu, -, hframe, hbits⟩ := hstatus v ha hin
      cases hu.symm.trans hstep
      exact ⟨hbits, by rw [hframe]⟩
    · cases (hignored v ha hin).symm.trans hstep
      exact ⟨fun _ _ => rfl, rfl⟩

theorem step_reset (s : State) (rest : List Event) (hin : s.inputs = .reset :: rest) :
    step s = .next (assertReset (s.advance rest)) := step_cons s .reset rest hin

/-- Settles O12: a legal state that holds an operation is busy with DONE = 0, and an event other than accept and RESET is
a host access (`step_host_busy`). -/
theorem heldUntilAcceptOrReset : Obligations.HeldUntilAcceptOrReset := by
  intro s t e rest h hheld hin hacc hres hstep
  have hbusy : Status.busy s.status = true := h.busy_iff_pend.trans hheld
  obtain ⟨hdone, -⟩ := h.held_op hheld
  cases e with
  | host x =>
    obtain ⟨hbits, hframe⟩ := step_host_busy s t x rest hbusy hin hstep
    exact ⟨(hbits 5 (by decide)).trans hbusy, (hbits 4 (by decide)).trans hdone, hbits, hframe⟩
  | accept => exact absurd rfl hacc
  | reset => exact absurd rfl hres

/-- Settles O21: the run of the two writes (`runSteps_ibufLen`). After the first, bit 8 of IBUF_LEN is bit 8 of n, and
the second replaces the byte below it. -/
theorem highByteFirstSetsIbufLen : Obligations.HighByteFirstSetsIbufLen := runSteps_ibufLen

/-- Settles O10, field by field of the state RESET leads to (`step_reset`). -/
theorem resetStepCancelsAndKeepsTxlog : Obligations.ResetStepCancelsAndKeepsTxlog :=
  fun s rest hin => ⟨assertReset (s.advance rest), step_reset s rest hin, rfl, rfl, rfl, rfl, rfl, rfl, rfl, rfl, rfl,
    rfl, rfl, rfl, Memory.find_nil, rfl, rfl, rfl⟩

end Sys2Proof.Machine
